-- ==== Sys2Proof/Word.lean ====
section
/-! DEFINITION. Levels, samples, triples and the widths of the block's registers (00_scope.md R10, R11; 10_state.md R20). -/

namespace Sys2Proof

/-- A level of the line (R10). -/
inductive Level where
  | low
  | high
deriving DecidableEq, Repr

/-- The level encoded as a bit: HIGH = 1, LOW = 0 (R10). -/
def Level.bit : Level → Bool
  | .low => false
  | .high => true

/-- The level a bit encodes (R10). -/
def Level.ofBit : Bool → Level
  | false => .low
  | true => .high

/-- The other level. -/
def Level.opposite : Level → Level
  | .low => .high
  | .high => .low

/-- The three samples of one poll, `s0` earliest (R10). -/
structure Triple where
  s0 : Level
  s1 : Level
  s2 : Level
deriving DecidableEq, Repr

/-- Three equal samples. -/
def Triple.all (l : Level) : Triple := { s0 := l, s1 := l, s2 := l }

/-- `tmr`, 10 bits (R22). -/
abbrev Timer := BitVec 10

/-- `bitcnt`, 6 bits (R23). -/
abbrev BitCount := BitVec 6

/-- `frame`, 40 bits (R24). -/
abbrev Frame := BitVec 40

/-- `hum_x10` and `temp_x10`, 16 bits (R29, R30). -/
abbrev Tenths := BitVec 16

/-- One captured byte (R24). -/
abbrev Byte := BitVec 8

end Sys2Proof
end

