-- ==== Sys2Proof/Syntax.lean ====
section
/-! DEFINITION. The formats and every row of spec/opcode_table.json (30_encoding.md R70 to R84). -/

namespace Sys2Proof

/-- The formats of the opcode table (R70; the last two are rows without an encoding, R82, R84). -/
inductive Format where
  | cmd
  | state
  | err
  | frame40
  | symbol
  | operation
  | macroForm
deriving DecidableEq, Repr

/-- The sixteen codes of `st` (R72); the last three are reserved (R80; log entry 4). -/
inductive St where
  | idle
  | s0IdleHigh
  | s1StartLow
  | s2Release
  | w2RelHigh
  | w3AckLow
  | w4AckHigh
  | w5SbLow
  | w6SbHigh
  | bLo
  | bHi
  | s8Restore
  | s9Validate
  | reserved13
  | reserved14
  | reserved15
deriving DecidableEq, Repr

/-- The nine errors E1 to E9 (R73, R191); no error is `none` of an `Option` (U3). -/
inductive ErrName where
  | e1
  | e2
  | e3
  | e4
  | e5
  | e6
  | e7
  | e8
  | e9
deriving DecidableEq, Repr

/-- One constructor per row of spec/opcode_table.json. -/
inductive Instr where
  -- format CMD (R71)
  | nop (cold : Bool)
  | readWarm
  | readCold
  -- format STATE (R72)
  | idle
  | s0IdleHigh
  | s1StartLow
  | s2Release
  | w2RelHigh
  | w3AckLow
  | w4AckHigh
  | w5SbLow
  | w6SbHigh
  | bLo
  | bHi
  | s8Restore
  | s9Validate
  | reserved13
  | reserved14
  | reserved15
  -- format ERR (R73)
  | errNone
  | e1
  | e2
  | e3
  | e4
  | e5
  | e6
  | e7
  | e8
  | e9
  -- format FRAME40: humidity field, temperature field, checksum (R77)
  | frame40 (hum temp : BitVec 16) (cksum : BitVec 8)
  -- format SYMBOL: measured lengths of the HIGH phase and of the LOW phase (R75)
  | symbol (high low : Nat)
  -- operation: target level, timeout (R100)
  | waitForLevel (target : Level) (timeout : Nat)
  -- pseudo-instruction: max_attempts (none given: the default), retry_delay, cold_start (R170, R175)
  | sample (maxAttempts : Option Nat) (retryDelay : Nat) (coldStart : Bool)
deriving DecidableEq, Repr

end Sys2Proof
end

