-- ==== Sys2Proof/Decode.lean ====
section
/-! DEFINITION. The encodings of 30_encoding.md: a total decoder that rejects by name, and the encoder. -/

namespace Sys2Proof

/-- A bit-encoded word: its format and its bits, bit 0 least significant (R11, R70). -/
structure TableWord where
  fmt : Format
  bits : Nat
deriving DecidableEq, Repr

/-- Why the decoder rejects a word. -/
inductive DecodeReject where
  /-- the word has a bit above its format's width (R81: every format has one fixed length) -/
  | tooWide
  /-- the format has no bit encoding (opcode table: "not a bit-encoded word") -/
  | notEncoded
  /-- `err` = 10..15, never produced (R80(b)) -/
  | errCodeUnused
deriving DecidableEq, Repr

/-- What the decoder answers. -/
inductive Decoded where
  | ok (i : Instr)
  | reject (r : DecodeReject)
deriving DecidableEq, Repr

/-- The width of a bit-encoded format (R70, R81). -/
def Format.width : Format → Option Nat
  | .cmd => some 2
  | .state => some 4
  | .err => some 4
  | .frame40 => some 40
  | .symbol => none
  | .operation => none
  | .macroForm => none

/-- The 4-bit code of a state (R72). -/
def stCode : St → BitVec 4
  | .idle => 0
  | .s0IdleHigh => 1
  | .s1StartLow => 2
  | .s2Release => 3
  | .w2RelHigh => 4
  | .w3AckLow => 5
  | .w4AckHigh => 6
  | .w5SbLow => 7
  | .w6SbHigh => 8
  | .bLo => 9
  | .bHi => 10
  | .s8Restore => 11
  | .s9Validate => 12
  | .reserved13 => 13
  | .reserved14 => 14
  | .reserved15 => 15

/-- The state a 4-bit code names (R72). -/
def stOfCode (c : BitVec 4) : St :=
  match c.toNat with
  | 0 => .idle
  | 1 => .s0IdleHigh
  | 2 => .s1StartLow
  | 3 => .s2Release
  | 4 => .w2RelHigh
  | 5 => .w3AckLow
  | 6 => .w4AckHigh
  | 7 => .w5SbLow
  | 8 => .w6SbHigh
  | 9 => .bLo
  | 10 => .bHi
  | 11 => .s8Restore
  | 12 => .s9Validate
  | 13 => .reserved13
  | 14 => .reserved14
  | _ => .reserved15

/-- The micro-step a state selects (R72). -/
def stInstr : St → Instr
  | .idle => .idle
  | .s0IdleHigh => .s0IdleHigh
  | .s1StartLow => .s1StartLow
  | .s2Release => .s2Release
  | .w2RelHigh => .w2RelHigh
  | .w3AckLow => .w3AckLow
  | .w4AckHigh => .w4AckHigh
  | .w5SbLow => .w5SbLow
  | .w6SbHigh => .w6SbHigh
  | .bLo => .bLo
  | .bHi => .bHi
  | .s8Restore => .s8Restore
  | .s9Validate => .s9Validate
  | .reserved13 => .reserved13
  | .reserved14 => .reserved14
  | .reserved15 => .reserved15

/-- The number of an error name: k for Ek (R73). -/
def errNumber : ErrName → Nat
  | .e1 => 1
  | .e2 => 2
  | .e3 => 3
  | .e4 => 4
  | .e5 => 5
  | .e6 => 6
  | .e7 => 7
  | .e8 => 8
  | .e9 => 9

/-- The 4-bit value of register `err`: 0 for no error, k for Ek (R73). -/
def errCode : Option ErrName → BitVec 4
  | none => 0
  | some k => BitVec.ofNat 4 (errNumber k)

/-- Format CMD (R71): bit 1 is `start`, bit 0 is `cold`, ignored when `start` = 0. -/
def decodeCmd (c : BitVec 2) : Instr :=
  match c.toNat with
  | 0 => .nop false
  | 1 => .nop true
  | 2 => .readWarm
  | _ => .readCold

/-- Format STATE (R72). -/
def decodeState (c : BitVec 4) : Instr := stInstr (stOfCode c)

/-- Format ERR (R73); 10..15 are never produced (R80). -/
def decodeErr (c : BitVec 4) : Decoded :=
  match c.toNat with
  | 0 => .ok .errNone
  | 1 => .ok .e1
  | 2 => .ok .e2
  | 3 => .ok .e3
  | 4 => .ok .e4
  | 5 => .ok .e5
  | 6 => .ok .e6
  | 7 => .ok .e7
  | 8 => .ok .e8
  | 9 => .ok .e9
  | _ => .reject .errCodeUnused

/-- Format FRAME40 (R77): `frame[39:24]`, `frame[23:8]`, `frame[7:0]`. -/
def decodeFrame40 (f : BitVec 40) : Instr :=
  .frame40 (f.extractLsb' 24 16) (f.extractLsb' 8 16) (f.extractLsb' 0 8)

/-- The instruction a word of a format stands for; total, rejecting by name. A word fits its format when it is below 2 to the
format's width: 4, 16, 16 and 2^40. -/
def decode (w : TableWord) : Decoded :=
  match w.fmt with
  | .cmd => if w.bits < 4 then .ok (decodeCmd (BitVec.ofNat 2 w.bits)) else .reject .tooWide
  | .state => if w.bits < 16 then .ok (decodeState (BitVec.ofNat 4 w.bits)) else .reject .tooWide
  | .err => if w.bits < 16 then decodeErr (BitVec.ofNat 4 w.bits) else .reject .tooWide
  | .frame40 => if w.bits < 1099511627776 then .ok (decodeFrame40 (BitVec.ofNat 40 w.bits)) else .reject .tooWide
  | .symbol => .reject .notEncoded
  | .operation => .reject .notEncoded
  | .macroForm => .reject .notEncoded

/-- The word of an instruction, `none` for the three rows that have no bit encoding (opcode table: SYMBOL, wait_for_level,
sample). -/
def encode : Instr → Option TableWord
  | .nop cold => some { fmt := .cmd, bits := if cold then 1 else 0 }
  | .readWarm => some { fmt := .cmd, bits := 2 }
  | .readCold => some { fmt := .cmd, bits := 3 }
  | .idle => some { fmt := .state, bits := 0 }
  | .s0IdleHigh => some { fmt := .state, bits := 1 }
  | .s1StartLow => some { fmt := .state, bits := 2 }
  | .s2Release => some { fmt := .state, bits := 3 }
  | .w2RelHigh => some { fmt := .state, bits := 4 }
  | .w3AckLow => some { fmt := .state, bits := 5 }
  | .w4AckHigh => some { fmt := .state, bits := 6 }
  | .w5SbLow => some { fmt := .state, bits := 7 }
  | .w6SbHigh => some { fmt := .state, bits := 8 }
  | .bLo => some { fmt := .state, bits := 9 }
  | .bHi => some { fmt := .state, bits := 10 }
  | .s8Restore => some { fmt := .state, bits := 11 }
  | .s9Validate => some { fmt := .state, bits := 12 }
  | .reserved13 => some { fmt := .state, bits := 13 }
  | .reserved14 => some { fmt := .state, bits := 14 }
  | .reserved15 => some { fmt := .state, bits := 15 }
  | .errNone => some { fmt := .err, bits := 0 }
  | .e1 => some { fmt := .err, bits := 1 }
  | .e2 => some { fmt := .err, bits := 2 }
  | .e3 => some { fmt := .err, bits := 3 }
  | .e4 => some { fmt := .err, bits := 4 }
  | .e5 => some { fmt := .err, bits := 5 }
  | .e6 => some { fmt := .err, bits := 6 }
  | .e7 => some { fmt := .err, bits := 7 }
  | .e8 => some { fmt := .err, bits := 8 }
  | .e9 => some { fmt := .err, bits := 9 }
  | .frame40 hum temp cksum => some { fmt := .frame40, bits := (hum ++ temp ++ cksum : BitVec 40).toNat }
  | .symbol _ _ => none
  | .waitForLevel _ _ => none
  | .sample _ _ _ => none

/-- The instruction the decoder answers, if any. -/
def Decoded.instr : Decoded → Option Instr
  | .ok i => some i
  | .reject _ => none

/-- Which format a bare word of the opcode table is read in, by its number of bits: the formats overlap, and a word of four
bits (one byte) is read as a state code (log entry 3). -/
def formatOfBits (nbits : Nat) : Option Format :=
  if nbits = 2 then some .cmd
  else if nbits = 4 ∨ nbits = 8 then some .state
  else if nbits = 40 then some .frame40
  else none

/-- The instruction the decoder reads from a bare word of the opcode table (log entry 3). -/
def decodeTableWord (nbits w : Nat) : Option Instr :=
  match formatOfBits nbits with
  | some f => (decode { fmt := f, bits := w }).instr
  | none => none

end Sys2Proof
end

