-- ==== Sys2Proof/Config.lean ====
section
/-! DEFINITION. The parameters of 00_scope.md R5 and R6 with the constraints of 70_reset_and_hazards.md R234, and the one
free value: the inputs of a tick that nothing has fixed. -/

namespace Sys2Proof

/-- How the temperature field is read (R6, R154). -/
inductive SignMode where
  | unsigned
  | signMagnitude
deriving DecidableEq, Repr

/-- The named constants of R5 and R6; durations in ticks, bounds in tenths. The names in the comments are the spec's. -/
structure Params where
  /-- `T_IDLE_US` -/
  tIdleUs : Nat
  /-- `T_START_LOW` -/
  tStartLow : Nat
  /-- `TO_REL_HIGH` -/
  toRelHigh : Nat
  /-- `TO_ACK_LOW` -/
  toAckLow : Nat
  /-- `TO_ACK_HIGH` -/
  toAckHigh : Nat
  /-- `TO_SB_LOW` -/
  toSbLow : Nat
  /-- `TO_SB_HIGH` -/
  toSbHigh : Nat
  /-- `TO_BIT_LOW` -/
  toBitLow : Nat
  /-- `TO_BIT_HIGH` -/
  toBitHigh : Nat
  /-- `TH_BIT` -/
  thBit : Nat
  /-- `HUM_MIN_X10` -/
  humMin : Int
  /-- `HUM_MAX_X10` -/
  humMax : Int
  /-- `TEMP_MIN_X10` -/
  tempMin : Int
  /-- `TEMP_MAX_X10` -/
  tempMax : Int
  /-- `SIGN_MODE` -/
  signMode : SignMode
  /-- `MAX_ATTEMPTS_DEFAULT` -/
  maxAttemptsDefault : Nat
  /-- `CLK_PER_US`: clock cycles per tick of a register-transfer realisation; no rule at tick level reads it (R6, R237). -/
  clkPerUs : Nat
deriving DecidableEq, Repr

/-- `TMR_W` (R6). -/
def tmrWidth : Nat := 10

/-- `BITCNT_W` (R6). -/
def bitcntWidth : Nat := 6

/-- `N_BITS` (R5). -/
def nBits : Nat := 40

/-- `N_BYTES` (R5). -/
def nBytes : Nat := 5

/-- `N_SAMPLES` (R5); the three components of `Triple`. -/
def nSamples : Nat := 3

/-- A timeout that R234 admits: a chained wait makes at least one poll, and `tmr` can hold it
(`2^TMR_W − 1` = 1023). -/
def timeoutFits (n : Nat) : Bool := decide (2 ≤ n) && decide (n ≤ 1023)

/-- The constraints of R234, and `CLK_PER_US ≥ 3` of R6. `N_BITS`, `N_BYTES`, `N_SAMPLES` and the widths are fixed above. -/
def Params.legal (p : Params) : Bool :=
  decide (1 ≤ p.tIdleUs) && decide (p.tIdleUs ≤ 1023) &&
  decide (1 ≤ p.tStartLow) && decide (p.tStartLow - 1 ≤ 1023) &&
  timeoutFits p.toRelHigh && timeoutFits p.toAckLow && timeoutFits p.toAckHigh &&
  timeoutFits p.toSbLow && timeoutFits p.toSbHigh &&
  timeoutFits p.toBitLow && timeoutFits p.toBitHigh &&
  decide (1 ≤ p.thBit) && decide (p.thBit < p.toBitLow) &&
  decide (p.humMin ≤ p.humMax) && decide (p.tempMin ≤ p.tempMax) &&
  decide (3 ≤ p.clkPerUs)

/-- A configuration carries the constraints of R234 as a proof, so one that breaks them cannot be written down (U13). -/
structure Config extends Params where
  ok : toParams.legal = true
deriving DecidableEq, Repr

/-- The document's values of R5 and the defaults of R6 (`T_IDLE_US = 1`, `SIGN_MODE = UNSIGNED`). -/
def Config.standard : Config where
  tIdleUs := 1
  tStartLow := 1000
  toRelHigh := 100
  toAckLow := 100
  toAckHigh := 100
  toSbLow := 200
  toSbHigh := 200
  toBitLow := 500
  toBitHigh := 500
  thBit := 50
  humMin := 0
  humMax := 1000
  tempMin := -400
  tempMax := 800
  signMode := .unsigned
  maxAttemptsDefault := 10
  clkPerUs := 4
  ok := by decide

/-- The standard configuration with the sign-bit reading of the temperature field (R154). -/
def Config.standardSigned : Config where
  toParams := { Config.standard.toParams with signMode := .signMagnitude }
  ok := by decide

/-- FREE VALUE. The inputs of tick `n` when nothing in the state fixes them, as the bits `stop, rst, start, cold, s0, s1, s2`
(93_implementation_defined.md U5, U6, U16: any value; log entry 1). -/
opaque Config.freeInput (n : Nat) : BitVec 7

end Sys2Proof
end

