-- ==== Sys2Proof/Machine/State.lean ====
section
/-! DEFINITION. The ten registers of 10_state.md R20, the ports, the host agent's and the model's own data, and the state
after reset (R37). Plain data throughout. -/

namespace Sys2Proof.Machine

/-- What comes from outside in one tick: the input ports (R31), and beside them the host's decision to stop. -/
structure Input where
  rst : Bool
  start : Bool
  cold : Bool
  smp : Triple
  /-- no port of the block: the host that runs a `sample` call stops issuing commands (R179, U16; log entry 9) -/
  stop : Bool := false
deriving DecidableEq, Repr

/-- The output ports (R32). -/
structure Output where
  sdaOe : Bool
  sdaOut : Level
  busy : Bool
  done : Bool
  valid : Bool
  err : BitVec 4
  humX10 : Tenths
  tempX10 : Tenths
deriving DecidableEq, Repr

/-- The complete state of the block: ten registers (R20). -/
structure Regs where
  /-- `st`, the micro-step of this tick (R21) -/
  st : St
  /-- `tmr` (R22) -/
  tmr : Timer
  /-- `bitcnt` (R23) -/
  bitcnt : BitCount
  /-- `frame` (R24) -/
  frame : Frame
  /-- `cold_q` (R25) -/
  coldQ : Bool
  /-- `err` (R26; an option over nine names, U3) -/
  err : Option ErrName
  /-- `done` (R27) -/
  done : Bool
  /-- `valid` (R28) -/
  valid : Bool
  /-- `hum_x10` (R29) -/
  humX10 : Tenths
  /-- `temp_x10` (R30) -/
  tempX10 : Tenths
deriving DecidableEq, Repr

/-- The register values after a tick with `rst = 1` (R37, R220). -/
def Regs.reset : Regs where
  st := .idle
  tmr := 0
  bitcnt := 0
  frame := 0
  coldQ := false
  err := none
  done := false
  valid := false
  humX10 := 0
  tempX10 := 0

/-- Result of the Edge Waiter (R100). -/
inductive WaitResult where
  | elapsed (e : Nat)
  | timeout
deriving DecidableEq, Repr

/-- Result of `decode_frame` (R158): `Ok(h, t)` in tenths, E8 or E9. -/
inductive FrameResult where
  | ok (h : Nat) (t : Int)
  | e8
  | e9
deriving DecidableEq, Repr

/-- What the block reads from one symbol on the wire (R75): a bit, or the error of the phase that is too long (R133, R134). -/
inductive SymbolResult where
  | bit (b : Bool)
  | e6
  | e7
deriving DecidableEq, Repr

/-- The outcome of an attempt as the host reads it (R38). -/
inductive DecodeOutcome where
  | ok (humX10 tempX10 : Tenths)
  | err (k : ErrName)
deriving DecidableEq, Repr

/-- Result of `sample` (R170): the reading the successful attempt published (R178), or `Exhausted`, without data (R177). -/
inductive SampleResult where
  | ok (humX10 tempX10 : Tenths)
  | exhausted
deriving DecidableEq, Repr

/-- What a finished unit call or session hands back (R82; log entry 5). -/
inductive Ret where
  | waited (r : WaitResult)
  | decoded (r : FrameResult)
  | symbol (r : SymbolResult)
  | sampled (r : SampleResult)
deriving DecidableEq, Repr

/-- A unit call waiting at the core's call surface (R82; log entry 5). -/
inductive Call where
  /-- a 40-bit frame for `decode_frame` (R158) -/
  | frame (word : Frame)
  /-- a symbol of the wire (R75) -/
  | symbol (high low : Nat)
  /-- `wait_for_level(target, timeout)` (R100) -/
  | wait (target : Level) (timeout : Nat)
  /-- `sample(max_attempts, retry_delay, cold_start)` (R170) -/
  | sample (maxAttempts : Option Nat) (retryDelay : Nat) (coldStart : Bool)
deriving DecidableEq, Repr

/-- Where a host that runs the Retry Sampler stands (R171, R173). -/
inductive Phase where
  /-- R171(1) and (2): wait for `busy = 0`, then present the command -/
  | request (cold : Bool)
  /-- R171(3): wait for `done = 1` -/
  | awaitDone (cold : Bool)
  /-- R173: ticks of `sleep` still to come -/
  | pause (left : Nat)
  /-- nothing to decode (R175): return in a tick with `busy = 0`, where the line is driven HIGH (R176; log entry 23) -/
  | finish
deriving DecidableEq, Repr

/-- A running `sample` call (R172). -/
structure Session where
  /-- warm decodes that may still be begun -/
  attemptsLeft : Nat
  /-- `retry_delay` in ticks -/
  retryDelay : Nat
  phase : Phase
deriving DecidableEq, Repr

/-- The machine. `regs` is the block (R20); the other fields are the model's own (INVENTORY.md, State). -/
structure State where
  regs : Regs
  /-- the constants the block is built with (R5, R6, R36); no step writes it (log entry 2) -/
  cfg : Config
  /-- a tick with `rst = 1` has happened (R223, U1; log entry 11) -/
  live : Bool
  /-- the inputs of the coming ticks, this tick's first; after them come free values (log entry 1) -/
  env : List Input
  /-- the number of steps taken; argument of the free inputs (log entry 1) -/
  tick : Nat
  /-- the Retry Sampler in progress, if any (log entry 8) -/
  session : Option Session
  /-- the unit call waiting to be run, if any (log entry 5) -/
  call : Option Call
  /-- what the last finished unit call or session handed back (log entry 5) -/
  ret : Option Ret
deriving DecidableEq, Repr

/-- The machine right after reset: every register at its value of R37, the standard configuration, nothing pending. -/
def State.reset : State where
  regs := Regs.reset
  cfg := Config.standard
  live := true
  env := []
  tick := 0
  session := none
  call := none
  ret := none

/-- The machine never stops with a fault: "The block raises nothing else" but E1 to E9 (R190), and those are taken as next
states (R204; log entry 17). No constructor, so nobody raises one. -/
inductive Fault where
deriving DecidableEq, Repr

/-- Why a step gives no next state. All are safe: the model stops where the spec gives no meaning. -/
inductive Refusal where
  /-- raised by `exec`'s arm of an instruction without a meaning; there is none. Safe. -/
  | notModelled (mnemonic : String)
  /-- raised by the meanings of RESERVED_13, RESERVED_14, RESERVED_15, and by a unit call made while `st` holds such a code
  (R80, U2: refuse). Safe. -/
  | reservedState (code : BitVec 4)
  /-- raised by `step` in a tick without `rst` before the first reset (R223, U1: refuse). Safe. -/
  | beforeFirstReset
  /-- raised by the meaning of `sample` while a `sample` call is running (R63, R179: unsupported). Safe. -/
  | sessionRunning
  /-- raised by `step` if the fetched word does not decode; the fetch never gives such a word. Safe. -/
  | undecodable
  /-- raised by the meaning of `wait_for_level` in a state that drives the line: it "requires `sda_oe = 0`" (R105, R52). Safe. -/
  | lineDriven
  /-- raised by the meaning of `wait_for_level` with a timeout that `tmr` cannot reach (R234, U13: refuse). Safe. -/
  | timeoutTooLong
deriving DecidableEq, Repr

end Sys2Proof.Machine
end

