-- ==== Sys2Proof/WellFormed.lean ====
section
/-! DEFINITION. Which terms of `Instr` stand for something the spec gives a meaning. -/

namespace Sys2Proof

/-- A phase is a run of ticks, so it lasts at least one (00_scope.md glossary "phase", 40_edge_waiter.md R109: a chained wait
never returns 0). -/
def phaseOk (n : Nat) : Bool := decide (1 ≤ n)

/-- A `STATE` code that is not reserved (R80). -/
def Instr.notReserved : Instr → Bool
  | .reserved13 => false
  | .reserved14 => false
  | .reserved15 => false
  | _ => true

/-- The lengths of a `SYMBOL`'s two phases. -/
def Instr.phasesOk : Instr → Bool
  | .symbol high low => phaseOk high && phaseOk low
  | _ => true

/-- A timeout that `tmr` can reach, 10 bits wide (R22; R234: every timeout is at most `2^TMR_W − 1`). -/
def timeoutHeld (n : Nat) : Bool := decide (n < 2 ^ 10)

/-- The timeout of a `wait_for_level`. -/
def Instr.timeoutOk : Instr → Bool
  | .waitForLevel _ timeout => timeoutHeld timeout
  | _ => true

/-- Well-formed: not a reserved code (R80), a symbol's phases are phases (R75), and a wait's timeout fits the timer (R234).
Every other operand may have every value of its type. -/
def Instr.wf (i : Instr) : Bool := i.notReserved && i.phasesOk && i.timeoutOk

end Sys2Proof
end

