-- ==== Sys2Proof/Machine/Flags.lean ====
section
/-! DEFINITION. The flags and status the host sees: the Moore outputs (10_state.md R32, R33), the outcome (R38) and the
reading (R157). -/

namespace Sys2Proof.Machine

/-- The seven wait states, in which the line is not driven (R33, R54). -/
def isWait : St → Bool
  | .w2RelHigh => true
  | .w3AckLow => true
  | .w4AckHigh => true
  | .w5SbLow => true
  | .w6SbHigh => true
  | .bLo => true
  | .bHi => true
  | .idle => false
  | .s0IdleHigh => false
  | .s1StartLow => false
  | .s2Release => false
  | .s8Restore => false
  | .s9Validate => false
  | .reserved13 => false
  | .reserved14 => false
  | .reserved15 => false

/-- A code of the thirteen named states (R39(g), R80). -/
def stNamed (st : St) : Bool := (stInstr st).notReserved

/-- Output `busy`: 1 exactly when `st ≠ IDLE` (R32). -/
def busyFlag (r : Regs) : Bool := decide (r.st ≠ .idle)

/-- Output `sda_oe` (R33). -/
def driveEnable (r : Regs) : Bool := !isWait r.st

/-- Output `sda_out`: LOW in `S1_START_LOW` only (R33, R54). -/
def driveLevel (r : Regs) : Level := if r.st = .s1StartLow then .low else .high

/-- The output ports, functions of the registers alone (R32). -/
def Regs.out (r : Regs) : Output where
  sdaOe := driveEnable r
  sdaOut := driveLevel r
  busy := busyFlag r
  done := r.done
  valid := r.valid
  err := errCode r.err
  humX10 := r.humX10
  tempX10 := r.tempX10

/-- The outcome of the last attempt: none while `done = 0`; `Ok` if `valid = 1`, else the error (R38, R74). No register holds
`done = 1`, `valid = 0`, `err = 0` in a reachable state (R39(c)); there the answer is none. -/
def Regs.outcome (r : Regs) : Option DecodeOutcome :=
  if r.done then
    if r.valid then some (.ok r.humX10 r.tempX10) else r.err.map .err
  else none

/-- The reading in percent and degrees: tenths divided by ten, exactly; the temperature is two's complement (R29, R30, R157). -/
def reading (humX10 tempX10 : Tenths) : Rat × Rat :=
  ((humX10.toNat : Rat) / 10, (tempX10.toInt : Rat) / 10)

/-- The level of the wire in a closed loop with a sensor that pulls LOW or lets go: the driver's level, else LOW if pulled and
HIGH through the pull-up; none where block and sensor fight (R55, general knowledge; U11). No rule of the block reads it. -/
def wireLevel (o : Output) (sensorPullsLow : Bool) : Option Level :=
  if o.sdaOe then
    match o.sdaOut, sensorPullsLow with
    | .low, _ => some .low
    | .high, false => some .high
    | .high, true => none
  else some (if sensorPullsLow then .low else .high)

end Sys2Proof.Machine
end

