-- ==== Sys2Proof/Machine/RetryAgent.lean ====
section
/-! DEFINITION. The host agent that runs the Retry Sampler on the ports, one tick at a time (43_retry_sampler.md R171 to R173). -/

namespace Sys2Proof.Machine

/-- What the host does in one tick: the command it presents, the session after the tick (none: it has returned) and the result
it returns. -/
structure HostMove where
  start : Bool
  cold : Bool
  next : Option Session
  result : Option SampleResult
deriving DecidableEq, Repr

/-- Present nothing and stand in a phase (R171: "The host keeps `start = 0`"). -/
def hostHold (ss : Session) (ph : Phase) : HostMove where
  start := false
  cold := false
  next := some { ss with phase := ph }
  result := none

/-- Return from `sample`, presenting nothing. -/
def hostReturn (r : SampleResult) : HostMove where
  start := false
  cold := false
  next := none
  result := some r

/-- Stop: no command is issued any more and nothing is returned (R179: "a host may simply stop issuing commands between
attempts"). -/
def hostStop : HostMove where
  start := false
  cold := false
  next := none
  result := none

/-- R171(1), (2): present the command in a tick with `busy = 0`, for that tick only. -/
def hostRequest (ss : Session) (cold : Bool) (o : Output) : HostMove :=
  if o.busy then hostHold ss (.request cold)
  else
    { start := true
      cold := cold
      next := some { ss with phase := .awaitDone cold }
      result := none }

/-- R175, R176: with nothing to decode, wait for `busy = 0`, then return `Exhausted`, so that the line is driven HIGH at the
return (log entry 23). -/
def hostFinish (ss : Session) (o : Output) : HostMove :=
  if o.busy then hostHold ss .finish else hostReturn .exhausted

/-- R172(b), (c): begin the next warm decode, or return `Exhausted` when none is left. -/
def hostNextWarm (ss : Session) (o : Output) : HostMove :=
  match ss.attemptsLeft with
  | 0 => hostReturn .exhausted
  | n + 1 => hostRequest { ss with attemptsLeft := n } false o

/-- R173: `sleep(n)` with this tick the first of its `n` ticks, then the next warm decode. -/
def hostPause (ss : Session) (n : Nat) (o : Output) : HostMove :=
  match n with
  | 0 => hostNextWarm ss o
  | m + 1 => hostHold ss (.pause m)

/-- R171(3), (4) and R172: what the host does once it sees `done = 1` after a `decode(cold)`: a cold outcome is discarded and
followed by a delay; a warm `Ok` is returned at once; a warm error is followed by a delay if an attempt is left. -/
def hostOutcome (ss : Session) (cold : Bool) (o : Output) : HostMove :=
  if cold then hostPause ss ss.retryDelay o
  else if o.valid then hostReturn (.ok o.humX10 o.tempX10)
  else if ss.attemptsLeft = 0 then hostReturn .exhausted
  else hostPause ss ss.retryDelay o

/-- What the protocol has the host do in one tick, from the outputs it sees in that tick (log entry 8). -/
def hostPlan (ss : Session) (o : Output) : HostMove :=
  match ss.phase with
  | .request cold => hostRequest ss cold o
  | .awaitDone cold => if o.done then hostOutcome ss cold o else hostHold ss (.awaitDone cold)
  | .pause n => hostPause ss n o
  | .finish => hostFinish ss o

/-- One tick of the host. If it stops, it stops between attempts only, that is in a tick with `busy = 0`; a result that is due
in that tick is still returned (R179, U16; log entry 9). -/
def hostMove (ss : Session) (o : Output) (stop : Bool) : HostMove :=
  if stop && !o.busy && (hostPlan ss o).next.isSome then hostStop else hostPlan ss o

end Sys2Proof.Machine
end

