-- ==== Sys2Proof/Machine/Operands.lean ====
section
/-! DEFINITION. The operand forms: the input ports of the tick (10_state.md R31), the wait descriptors (30_encoding.md R79),
the bytes and fields of the frame (R24, R57, R78), the bit a measured HIGH phase stands for (R75). -/

namespace Sys2Proof.Machine

/-- The input a free value stands for, `{stop, rst, start, cold, s0, s1, s2}` from the most significant bit down. -/
def inputOfBits (b : BitVec 7) : Input where
  stop := b.getLsbD 6
  rst := b.getLsbD 5
  start := b.getLsbD 4
  cold := b.getLsbD 3
  smp := { s0 := Level.ofBit (b.getLsbD 2), s1 := Level.ofBit (b.getLsbD 1), s2 := Level.ofBit (b.getLsbD 0) }

/-- The input of the `n`-th tick from now (0: this tick), before a host agent overrides the command: listed in `env`, else
free (log entry 1). -/
def State.streamAt (s : State) (n : Nat) : Input :=
  match s.env.drop n with
  | i :: _ => i
  | [] => inputOfBits (Config.freeInput (s.tick + n))

/-- What the host agent does in this tick, if a session is running. -/
def State.host (s : State) : Option HostMove :=
  s.session.map fun ss => hostMove ss s.regs.out (s.streamAt 0).stop

/-- The input ports of this tick (R31): of the stream, but `start` and `cold` are the host agent's while it runs a session
(R7(c), R171). -/
def State.ports (s : State) : Input :=
  match s.host with
  | none => s.streamAt 0
  | some m => { s.streamAt 0 with start := m.start, cold := m.cold }

/-- Format CMD on the ports: bit 1 `start`, bit 0 `cold` (R71). -/
def cmdWord (i : Input) : TableWord where
  fmt := .cmd
  bits := (if i.start then 2 else 0) + (if i.cold then 1 else 0)

/-- The level a wait state waits for (R79). -/
def waitTarget : St → Level
  | .w2RelHigh => .high
  | .w3AckLow => .low
  | .w4AckHigh => .high
  | .w5SbLow => .low
  | .w6SbHigh => .high
  | .bLo => .low
  | _ => .high

/-- The timeout of a wait state (R79); 0 for a state that is none. -/
def waitTimeout (p : Params) : St → Nat
  | .w2RelHigh => p.toRelHigh
  | .w3AckLow => p.toAckLow
  | .w4AckHigh => p.toAckHigh
  | .w5SbLow => p.toSbLow
  | .w6SbHigh => p.toSbHigh
  | .bLo => p.toBitLow
  | .bHi => p.toBitHigh
  | _ => 0

/-- The failure code of a wait state (R79). -/
def waitError : St → ErrName
  | .w2RelHigh => .e1
  | .w3AckLow => .e2
  | .w4AckHigh => .e3
  | .w5SbLow => .e4
  | .w6SbHigh => .e5
  | .bLo => .e6
  | _ => .e7

/-- `byte(i) = frame[39−8i : 32−8i]`, `i` in 0..4 (R12, R24). -/
def frameByte (f : Frame) (i : Nat) : Byte := f.extractLsb' (32 - 8 * i) 8

/-- `hum_raw = {byte(0), byte(1)}` (R57, R153). -/
def humRaw (b0 b1 : Byte) : Nat := b0.toNat * 256 + b1.toNat

/-- `temp_raw = {byte(2), byte(3)}` (R57, R153). -/
def tempRaw (b2 b3 : Byte) : Nat := b2.toNat * 256 + b3.toNat

/-- The bit an elapsed HIGH phase stands for: 1 from `TH_BIT` on (R75). -/
def bitOfElapsed (p : Params) (e : Nat) : Bool := decide (p.thBit ≤ e)

/-- `max_attempts`, or its default when the host is given no value (R175). -/
def maxAttemptsOf (p : Params) : Option Nat → Nat
  | some n => n
  | none => p.maxAttemptsDefault

end Sys2Proof.Machine
end

