-- ==== Sys2Proof/Machine/Ops.lean ====
section
/-! DEFINITION. The shared operations: polling the line, the timed and wait steps (40_edge_waiter.md R101, R108), taking an
error (60_exceptions.md R204) and its return (R206), capture, publishing, and what one tick does outside the block. -/

namespace Sys2Proof.Machine

/-- `unanimous(smp, L)` (R12, R101). -/
def unanimous (t : Triple) (l : Level) : Bool := decide (t.s0 = l) && decide (t.s1 = l) && decide (t.s2 = l)

/-- TAKING AN ERROR, `raise E<k>` (R12, R204): the code is recorded; a timeout E1 to E7 goes to `S8_RESTORE` with the timer
cleared, a validation error E8 or E9 ends the attempt. Nothing else is written. -/
def raiseError (r : Regs) (k : ErrName) : Regs :=
  match k with
  | .e8 => { r with err := some .e8, done := true, st := .idle }
  | .e9 => { r with err := some .e9, done := true, st := .idle }
  | .e1 => { r with err := some .e1, tmr := 0, st := .s8Restore }
  | .e2 => { r with err := some .e2, tmr := 0, st := .s8Restore }
  | .e3 => { r with err := some .e3, tmr := 0, st := .s8Restore }
  | .e4 => { r with err := some .e4, tmr := 0, st := .s8Restore }
  | .e5 => { r with err := some .e5, tmr := 0, st := .s8Restore }
  | .e6 => { r with err := some .e6, tmr := 0, st := .s8Restore }
  | .e7 => { r with err := some .e7, tmr := 0, st := .s8Restore }

/-- ACCEPTING A COMMAND (R121), also the return from an error (R206): the mode flag is latched, everything of the previous
attempt is cleared. -/
def acceptCommand (r : Regs) (cold : Bool) : Regs :=
  { r with
    coldQ := cold
    err := none
    done := false
    valid := false
    humX10 := 0
    tempX10 := 0
    tmr := 0
    bitcnt := 0
    frame := 0
    st := .s0IdleHigh }

/-- What an `IDLE` tick does with the command on the ports (R71, R121, R122). -/
def runCommand (r : Regs) (i : Input) : Regs :=
  match decode (cmdWord i) with
  | .ok .readWarm => acceptCommand r false
  | .ok .readCold => acceptCommand r true
  | _ => r

/-- A tick of a driving state that lasts `len` ticks (R123, R124). -/
def timedStep (r : Regs) (len : Nat) (successor : St) : Regs :=
  if r.tmr.toNat = len - 1 then { r with tmr := 0, st := successor } else { r with tmr := r.tmr + 1 }

/-- A tick of a wait state (R108): the timeout test comes before the poll (R203(b)). `accepted` is the accept action's
result; its elapsed time is `tmr`. -/
def waitStep (r : Regs) (smp : Triple) (target : Level) (timeout : Nat) (k : ErrName) (accepted : Regs) : Regs :=
  if timeout ≤ r.tmr.toNat then raiseError r k
  else if unanimous smp target then accepted
  else { r with tmr := r.tmr + 1 }

/-- The accept action that only goes on to the next wait, whose clock starts at this accept (R107(b)). -/
def chainTo (r : Regs) (successor : St) : Regs := { r with tmr := 1, st := successor }

/-- The accept action of `B_LO` (R133): classify the elapsed time, shift the bit in at the right (R24), go to `B_HI`. -/
def captureBit (p : Params) (r : Regs) (e : Nat) : Regs :=
  { r with
    frame := (r.frame.extractLsb' 0 39) ++ BitVec.ofBool (bitOfElapsed p e)
    tmr := 1
    st := .bHi }

/-- The accept action of `B_HI` (R134): count the bit; after the 40th go to `S8_RESTORE`. -/
def countBit (r : Regs) : Regs :=
  if r.bitcnt.toNat + 1 = nBits then { r with bitcnt := r.bitcnt + 1, tmr := 0, st := .s8Restore }
  else { r with bitcnt := r.bitcnt + 1, tmr := 1, st := .bLo }

/-- The tick of `S8_RESTORE` (R135). -/
def restoreStep (r : Regs) : Regs :=
  if r.err.isSome then { r with done := true, st := .idle } else { r with st := .s9Validate }

/-- `t[15:0]`, the two's-complement form of a temperature (R150, R161(g)). -/
def tenthsOfInt (t : Int) : Tenths := BitVec.ofInt 16 t

/-- The tick of `S9_VALIDATE`, given the decoder's result (R150). -/
def publish (r : Regs) : FrameResult → Regs
  | .ok h t =>
    { r with
      valid := true
      humX10 := BitVec.ofNat 16 h
      tempX10 := tenthsOfInt t
      done := true
      st := .idle }
  | .e8 => raiseError r .e8
  | .e9 => raiseError r .e9

/-- The end of a tick (R12: all writes take effect together; log entries 1, 8): the block's new registers, the stream moved on
by one tick, the host agent's move of this tick made. -/
def finishTick (s : State) (r : Regs) : State :=
  { s with
    regs := r
    env := s.env.tail
    tick := s.tick + 1
    session := s.host.bind HostMove.next
    ret := match s.host.bind HostMove.result with
      | some x => some (.sampled x)
      | none => s.ret }

/-- A tick with `rst = 1` (R220, R222): every register takes its reset value, whatever it held; a unit call is dropped. -/
def resetTick (s : State) : State :=
  { finishTick s Regs.reset with live := true, call := none }

/-- A call that can run in a state: a `wait_for_level` only as the call that this very wait state makes, with its operands
(R79, R100, R105); every other call reads nothing of the block. -/
def callFits (p : Params) (st : St) : Call → Bool
  | .wait target timeout => isWait st && decide (target = waitTarget st) && decide (timeout = waitTimeout p st)
  | .frame _ => true
  | .symbol _ _ => true
  | .sample _ _ _ => true

/-- The unit call that this tick runs beside the block's own micro-step: with no session running and `st` a named state
(log entry 5). -/
def State.callNow (s : State) : Option Call :=
  if s.session = none ∧ stNamed s.regs.st = true then s.call.filter (callFits s.cfg.toParams s.regs.st) else none

/-- The outcome of the block's tick that leaves the registers `r`. -/
def tickTo (s : State) (r : Regs) : Host.Outcome State Fault Refusal := .next (finishTick s r)

/-- A tick of the wait state `w` with its descriptor of R79; `accepted` is the accept action's result. -/
def waitTick (s : State) (w : St) (accepted : Regs) : Host.Outcome State Fault Refusal :=
  tickTo s (waitStep s.regs s.ports.smp (waitTarget w) (waitTimeout s.cfg.toParams w) (waitError w) accepted)

/-- A unit call as an instruction. -/
def callInstr : Call → Decoded
  | .frame w => decode { fmt := .frame40, bits := w.toNat }
  | .symbol high low => .ok (.symbol high low)
  | .wait target timeout => .ok (.waitForLevel target timeout)
  | .sample n d c => .ok (.sample n d c)

/-- What this tick executes: the micro-step whose code `st` holds (R21, R72), or a unit call, whose meaning includes that
micro-step's tick (R140; log entry 5). -/
def fetch (s : State) : Decoded :=
  match s.callNow with
  | some c => callInstr c
  | none => decode { fmt := .state, bits := (stCode s.regs.st).toNat }

/-- An input tick with nothing asserted and the line HIGH (log entry 12). -/
def quietInput : Input where
  rst := false
  start := false
  cold := false
  smp := Triple.all .high

/-- The stream with this tick's input listed and its `rst` at 0. -/
def envNoReset : List Input → List Input
  | [] => [quietInput]
  | i :: rest => { i with rst := false } :: rest

/-- The stream with this tick's command replaced. -/
def envCommand (start cold : Bool) : List Input → List Input
  | [] => []
  | i :: rest => { i with start := start, cold := cold } :: rest

/-- Put a bare table word where the next step finds it (log entry 12): a command on the ports of an idle block, a state code in
`st`, a frame at the call surface. -/
def placeWord (s : State) (nbits w : Nat) : State :=
  match formatOfBits nbits with
  | some .cmd =>
    { s with
      regs := { s.regs with st := .idle }
      live := true
      env := envCommand (w.testBit 1) (w.testBit 0) (envNoReset s.env)
      session := none
      call := none }
  | some .state =>
    { s with
      regs := { s.regs with st := stOfCode (BitVec.ofNat 4 w) }
      live := true
      env := envNoReset s.env
      call := none }
  | some .frame40 =>
    { s with
      regs := { s.regs with st := if stNamed s.regs.st then s.regs.st else .idle }
      live := true
      env := envNoReset s.env
      session := none
      call := some (.frame (BitVec.ofNat 40 w)) }
  | _ => s

end Sys2Proof.Machine
end

