-- ==== Sys2Proof/Machine/BitCapture.lean ====
section
/-! DEFINITION. Bit capture: B_LO, B_HI (41_handshake_fsm.md R132 to R134) and how a symbol of the wire is read (30_encoding.md R75).
The order of the two waits and the wait that is classified stand in `execBLo`, `execBHi` and `captureBit` alone (N3). -/

namespace Sys2Proof.Machine

/-- `B_LO` (R133): the accepted wait's elapsed time is classified and the bit shifted in. -/
def execBLo (s : State) : Host.Outcome State Fault Refusal :=
  waitTick s .bLo (captureBit s.cfg.toParams s.regs s.regs.tmr.toNat)

/-- `B_HI` (R134): the accepted wait's elapsed time is discarded and the bit counted. -/
def execBHi (s : State) : Host.Outcome State Fault Refusal := waitTick s .bHi (countBit s.regs)

/-- The bit a symbol is read as, from the lengths of its HIGH and LOW phases as the two waits measure them: each has to end
within its timeout, and only the HIGH phase's length carries information (R75). -/
def symbolResult (p : Params) (high low : Nat) : SymbolResult :=
  if p.toBitLow ≤ high then .e6
  else if p.toBitHigh ≤ low then .e7
  else .bit (bitOfElapsed p high)

end Sys2Proof.Machine
end

