-- ==== Sys2Proof/Machine/Commands.lean ====
section
/-! DEFINITION. The host commands NOP, READ_WARM, READ_COLD (30_encoding.md R71; 41_handshake_fsm.md R121, R122). -/

namespace Sys2Proof.Machine

/-- `NOP` (R122): every register keeps its value; bit 0 of the command is ignored. -/
def execNop (_cold : Bool) (s : State) : Host.Outcome State Fault Refusal := tickTo s s.regs

/-- `READ_WARM` (R121): accepted in `IDLE` only; in any other state it is ignored (R122; log entry 14). -/
def execReadWarm (s : State) : Host.Outcome State Fault Refusal :=
  tickTo s (if s.regs.st = .idle then acceptCommand s.regs false else s.regs)

/-- `READ_COLD` (R121): accepted in `IDLE` only; in any other state it is ignored (R122; log entry 14). -/
def execReadCold (s : State) : Host.Outcome State Fault Refusal :=
  tickTo s (if s.regs.st = .idle then acceptCommand s.regs true else s.regs)

end Sys2Proof.Machine
end

