-- ==== Sys2Proof/Machine/Drive.lean ====
section
/-! DEFINITION. The micro-steps that drive the line: IDLE, S0_IDLE_HIGH, S1_START_LOW, S2_RELEASE, S8_RESTORE
(41_handshake_fsm.md R122 to R125, R135). -/

namespace Sys2Proof.Machine

/-- `IDLE`: run the command on the ports (R71, R121, R122). -/
def execIdle (s : State) : Host.Outcome State Fault Refusal := tickTo s (runCommand s.regs s.ports)

/-- `S0_IDLE_HIGH`: `T_IDLE_US` ticks, then `S1_START_LOW` (R123). -/
def execS0IdleHigh (s : State) : Host.Outcome State Fault Refusal :=
  tickTo s (timedStep s.regs s.cfg.tIdleUs .s1StartLow)

/-- `S1_START_LOW`: `T_START_LOW` ticks, then `S2_RELEASE` (R124). -/
def execS1StartLow (s : State) : Host.Outcome State Fault Refusal :=
  tickTo s (timedStep s.regs s.cfg.tStartLow .s2Release)

/-- `S2_RELEASE`: one tick, then `W2_REL_HIGH` with its clock at 0 (R125, R107(a)). -/
def execS2Release (s : State) : Host.Outcome State Fault Refusal :=
  tickTo s { s.regs with tmr := 0, st := .w2RelHigh }

/-- `S8_RESTORE`: one tick; finish if an error is pending, else validate (R135, R136). -/
def execS8Restore (s : State) : Host.Outcome State Fault Refusal := tickTo s (restoreStep s.regs)

end Sys2Proof.Machine
end

