-- ==== Sys2Proof/Machine/Validate.lean ====
section
/-! DEFINITION. The frame decoder and checksum validator: `decode_frame`, S9_VALIDATE (42_frame_decoder.md). -/

namespace Sys2Proof.Machine

/-- `sum8`, the exact sum of the four bytes, its low eight bits kept (R152). -/
def sum8 (b0 b1 b2 b3 : Byte) : Nat := (b0.toNat + b1.toNat + b2.toNat + b3.toNat) % 256

/-- The temperature in tenths: unsigned, or bit 15 a sign and bits 14..0 a magnitude (R154). -/
def temperatureOf (m : SignMode) (raw : Nat) : Int :=
  match m with
  | .unsigned => raw
  | .signMagnitude => if 32768 ≤ raw then -((raw % 32768 : Nat) : Int) else raw

/-- The range test, all four bounds inclusive, on exact integers in tenths (R155). -/
def inRange (p : Params) (h : Nat) (t : Int) : Bool :=
  decide (p.humMin ≤ h) && decide ((h : Int) ≤ p.humMax) && decide (p.tempMin ≤ t) && decide (t ≤ p.tempMax)

/-- `decode_frame` (R158): the checksum test first, then the range test (R156). -/
def decodeFrame (p : Params) (b0 b1 b2 b3 b4 : Byte) : FrameResult :=
  if b4.toNat ≠ sum8 b0 b1 b2 b3 then .e8
  else if inRange p (humRaw b0 b1) (temperatureOf p.signMode (tempRaw b2 b3)) then
    .ok (humRaw b0 b1) (temperatureOf p.signMode (tempRaw b2 b3))
  else .e9

/-- `decode_frame` on the five bytes of a 40-bit frame (R24, R150, R151). -/
def decodeWord (p : Params) (f : Frame) : FrameResult :=
  decodeFrame p (frameByte f 0) (frameByte f 1) (frameByte f 2) (frameByte f 3) (frameByte f 4)

/-- `S9_VALIDATE` (R150). -/
def execS9Validate (s : State) : Host.Outcome State Fault Refusal :=
  tickTo s (publish s.regs (decodeWord s.cfg.toParams s.regs.frame))

end Sys2Proof.Machine
end

