-- ==== Sys2Proof/Machine/Block.lean ====
section
/-! DEFINITION. One tick of the block's registers as 41_handshake_fsm.md R140 gives it, and what runs beside it. The meanings of
the micro-steps are written one by one in their own files; `Laws/Ops.lean` proves that each of them is this tick. -/

namespace Sys2Proof.Machine

/-- The accept action A of a wait state (R126 to R134); its elapsed time is `tmr`. -/
def acceptAction (p : Params) (r : Regs) : Regs :=
  match r.st with
  | .w2RelHigh => chainTo r .w3AckLow
  | .w3AckLow => chainTo r .w4AckHigh
  | .w4AckHigh => chainTo r (if r.coldQ then .w5SbLow else .bLo)
  | .w5SbLow => chainTo r .w6SbHigh
  | .w6SbHigh => chainTo r .bLo
  | .bLo => captureBit p r r.tmr.toNat
  | .bHi => countBit r
  | _ => r

/-- R140 for `rst = 0`: the registers after one tick. A reserved code has no tick (U2), see `besideBlock`. -/
def blockTick (p : Params) (i : Input) (r : Regs) : Regs :=
  if isWait r.st then
    waitStep r i.smp (waitTarget r.st) (waitTimeout p r.st) (waitError r.st) (acceptAction p r)
  else
    match r.st with
    | .idle => runCommand r i
    | .s0IdleHigh => timedStep r p.tIdleUs .s1StartLow
    | .s1StartLow => timedStep r p.tStartLow .s2Release
    | .s2Release => { r with tmr := 0, st := .w2RelHigh }
    | .s8Restore => restoreStep r
    | .s9Validate => publish r (decodeWord p r.frame)
    | _ => r

/-- The block's own tick of R140, and beside it what `f` does to the model's own fields (R60; log entry 5). -/
def besideBlock (s : State) (f : State → State) : Host.Outcome State Fault Refusal :=
  if stNamed s.regs.st then .next (f (finishTick s (blockTick s.cfg.toParams s.ports s.regs)))
  else .refused (.reservedState (stCode s.regs.st))

/-- A finished unit call hands back its result and leaves the call surface. -/
def State.answer (s : State) (x : Ret) : State := { s with call := none, ret := some x }

/-- The `sample` call has left the call surface and its session runs. -/
def State.startSession (s : State) (ss : Session) : State := { s with call := none, session := some ss }

end Sys2Proof.Machine
end

