-- ==== Sys2Proof/Machine/EdgeWaiter.lean ====
section
/-! DEFINITION. The Edge Waiter as a function of the sample stream and as the call a wait state makes (40_edge_waiter.md R100 to
R111). -/

namespace Sys2Proof.Machine

/-- The polls from elapsed time `e` on, `n` of them left. -/
def waitFrom (target : Level) (samples : Nat → Triple) : Nat → Nat → WaitResult
  | 0, _ => .timeout
  | n + 1, e => if unanimous (samples e) target then .elapsed e else waitFrom target samples n (e + 1)

/-- `wait_for_level` as a function of the triples from its call tick on (R104). -/
def waitForLevel (target : Level) (timeout : Nat) (samples : Nat → Triple) : WaitResult :=
  waitFrom target samples timeout 0

/-- What a `wait_for_level` call answers in the tick with elapsed time `e`, if it ends in it: at the timeout no poll is made
(R102, R103, R108). -/
def waitAnswer (target : Level) (timeout e : Nat) (smp : Triple) : Option WaitResult :=
  if timeout ≤ e then some .timeout
  else if unanimous smp target then some (.elapsed e)
  else none

/-- A finished `wait_for_level` hands back its result; an unfinished one stays where it is. -/
def State.answerWait (s : State) : Option WaitResult → State
  | some x => s.answer (.waited x)
  | none => s

/-- `wait_for_level` (R100 to R108), one tick of it: the calling wait state's tick with the operands as its immediates, the
elapsed time in `tmr` (R105: it "writes only `tmr`", and through the wait state that state's accept or failure action). It
requires `sda_oe = 0` (R105), and a timeout that `tmr` can reach (R234; log entries 5, 6). -/
def execWaitForLevel (target : Level) (timeout : Nat) (s : State) : Host.Outcome State Fault Refusal :=
  if !isWait s.regs.st then .refused .lineDriven
  else if !timeoutHeld timeout then .refused .timeoutTooLong
  else
    .next ((finishTick s (waitStep s.regs s.ports.smp target timeout (waitError s.regs.st)
      (acceptAction s.cfg.toParams s.regs))).answerWait (waitAnswer target timeout s.regs.tmr.toNat s.ports.smp))

end Sys2Proof.Machine
end

