-- ==== Sys2Proof/Machine/Errors.lean ====
section
/-! DEFINITION. The error codes: NONE and E1 to E9 as the tick that finds the failure (60_exceptions.md R191 to R204; log
entry 7). A wait that times out, and `S9_VALIDATE` on a rejected frame, do exactly this. -/

namespace Sys2Proof.Machine

/-- `NONE` (R73): no failure is found, nothing is raised and no register is written. -/
def execErrNone (s : State) : Host.Outcome State Fault Refusal := tickTo s s.regs

/-- `E1` (R193): `W2_REL_HIGH` timed out. -/
def execE1 (s : State) : Host.Outcome State Fault Refusal := tickTo s (raiseError s.regs .e1)

/-- `E2` (R194): `W3_ACK_LOW` timed out. -/
def execE2 (s : State) : Host.Outcome State Fault Refusal := tickTo s (raiseError s.regs .e2)

/-- `E3` (R195): `W4_ACK_HIGH` timed out. -/
def execE3 (s : State) : Host.Outcome State Fault Refusal := tickTo s (raiseError s.regs .e3)

/-- `E4` (R196): `W5_SB_LOW` timed out. -/
def execE4 (s : State) : Host.Outcome State Fault Refusal := tickTo s (raiseError s.regs .e4)

/-- `E5` (R197): `W6_SB_HIGH` timed out. -/
def execE5 (s : State) : Host.Outcome State Fault Refusal := tickTo s (raiseError s.regs .e5)

/-- `E6` (R198): `B_LO` timed out. -/
def execE6 (s : State) : Host.Outcome State Fault Refusal := tickTo s (raiseError s.regs .e6)

/-- `E7` (R199): `B_HI` timed out. -/
def execE7 (s : State) : Host.Outcome State Fault Refusal := tickTo s (raiseError s.regs .e7)

/-- `E8` (R200): the checksum test failed. -/
def execE8 (s : State) : Host.Outcome State Fault Refusal := tickTo s (raiseError s.regs .e8)

/-- `E9` (R201): the range test failed. -/
def execE9 (s : State) : Host.Outcome State Fault Refusal := tickTo s (raiseError s.regs .e9)

end Sys2Proof.Machine
end

