-- ==== Sys2Proof/Machine/Handshake.lean ====
section
/-! DEFINITION. The handshake waits W2_REL_HIGH, W3_ACK_LOW, W4_ACK_HIGH, W5_SB_LOW, W6_SB_HIGH (41_handshake_fsm.md R126 to
R131); their targets, timeouts and failure codes are `waitTarget`, `waitTimeout`, `waitError` (R79). -/

namespace Sys2Proof.Machine

/-- `W2_REL_HIGH` (R126). -/
def execW2RelHigh (s : State) : Host.Outcome State Fault Refusal :=
  waitTick s .w2RelHigh (chainTo s.regs .w3AckLow)

/-- `W3_ACK_LOW` (R127). -/
def execW3AckLow (s : State) : Host.Outcome State Fault Refusal :=
  waitTick s .w3AckLow (chainTo s.regs .w4AckHigh)

/-- `W4_ACK_HIGH` (R128): a cold attempt goes on to the start bit, a warm one to the payload (R131). -/
def execW4AckHigh (s : State) : Host.Outcome State Fault Refusal :=
  waitTick s .w4AckHigh (chainTo s.regs (if s.regs.coldQ then .w5SbLow else .bLo))

/-- `W5_SB_LOW` (R129). -/
def execW5SbLow (s : State) : Host.Outcome State Fault Refusal :=
  waitTick s .w5SbLow (chainTo s.regs .w6SbHigh)

/-- `W6_SB_HIGH` (R130). -/
def execW6SbHigh (s : State) : Host.Outcome State Fault Refusal :=
  waitTick s .w6SbHigh (chainTo s.regs .bLo)

end Sys2Proof.Machine
end

