-- ==== Sys2Proof/Machine/Reserved.lean ====
section
/-! DEFINITION. The reserved state codes 13, 14, 15 (30_encoding.md R80; 93_implementation_defined.md U2: refuse). -/

namespace Sys2Proof.Machine

/-- `RESERVED_13` (R80). -/
def execReserved13 (_s : State) : Host.Outcome State Fault Refusal := .refused (.reservedState (stCode .reserved13))

/-- `RESERVED_14` (R80). -/
def execReserved14 (_s : State) : Host.Outcome State Fault Refusal := .refused (.reservedState (stCode .reserved14))

/-- `RESERVED_15` (R80). -/
def execReserved15 (_s : State) : Host.Outcome State Fault Refusal := .refused (.reservedState (stCode .reserved15))

end Sys2Proof.Machine
end

