-- ==== Sys2Proof/Machine/RetrySampler.lean ====
section
/-! DEFINITION. The Retry Sampler: `sample` as a function of the outcomes its decode calls return, with its counts
(43_retry_sampler.md R172, R174, R175), and the call that begins a session of the host agent. -/

namespace Sys2Proof.Machine

/-- What one `sample` call returns and how many decode calls and delays it made (R174). -/
structure SampleRun where
  result : SampleResult
  coldDecodes : Nat
  warmDecodes : Nat
  delays : Nat
deriving DecidableEq, Repr

/-- R172(b), (c): at most `left` warm decodes, the first of them the stub's call number `i`; a delay only between two. -/
def warmRun (stub : Nat → DecodeOutcome) : Nat → Nat → SampleRun
  | 0, _ => { result := .exhausted, coldDecodes := 0, warmDecodes := 0, delays := 0 }
  | left + 1, i =>
    match stub i with
    | .ok h t => { result := .ok h t, coldDecodes := 0, warmDecodes := 1, delays := 0 }
    | .err _ =>
      if left = 0 then { result := .exhausted, coldDecodes := 0, warmDecodes := 1, delays := 0 }
      else
        { warmRun stub left (i + 1) with
          warmDecodes := (warmRun stub left (i + 1)).warmDecodes + 1
          delays := (warmRun stub left (i + 1)).delays + 1 }

/-- `sample(max_attempts, d, cold_start)` over a stub that gives the outcome of the k-th decode call (R172): a cold decode is
discarded, not counted against the budget, and followed by one delay. -/
def sampleRun (stub : Nat → DecodeOutcome) (maxAttempts : Nat) (coldStart : Bool) : SampleRun :=
  if coldStart then
    { warmRun stub maxAttempts 1 with coldDecodes := 1, delays := (warmRun stub maxAttempts 1).delays + 1 }
  else warmRun stub maxAttempts 0

/-- The session a `sample` call begins: with the cold decode if asked for, else with the first warm one, else, when the budget
is 0, with the wait for the line (R172, R175, R176). -/
def beginSession (maxAttempts retryDelay : Nat) (coldStart : Bool) : Session :=
  if coldStart then { attemptsLeft := maxAttempts, retryDelay := retryDelay, phase := .request true }
  else
    match maxAttempts with
    | 0 => { attemptsLeft := 0, retryDelay := retryDelay, phase := .finish }
    | n + 1 => { attemptsLeft := n, retryDelay := retryDelay, phase := .request false }

/-- `sample` (R170, R172): the host agent begins its session beside the block's tick; its moves follow from the next tick on
(log entries 5, 8). While a session runs another is unsupported (R63, R179; log entry 10). -/
def execSample (maxAttempts : Option Nat) (retryDelay : Nat) (coldStart : Bool) (s : State) :
    Host.Outcome State Fault Refusal :=
  match s.session with
  | some _ => .refused .sessionRunning
  | none =>
    besideBlock s fun t =>
      t.startSession (beginSession (maxAttemptsOf s.cfg.toParams maxAttempts) retryDelay coldStart)

end Sys2Proof.Machine
end

