-- ==== Sys2Proof/Machine/UnitCalls.lean ====
section
/-! DEFINITION. The rows that compute from their operands alone: FRAME40 (42_frame_decoder.md R158) and SYMBOL (30_encoding.md
R75). -/

namespace Sys2Proof.Machine

/-- `FRAME40` (R77, R158): `decode_frame` of the operand fields is handed back beside the block's tick (R158: "has no side
effect"; log entry 5). -/
def execFrame40 (hum temp : BitVec 16) (cksum : BitVec 8) (s : State) : Host.Outcome State Fault Refusal :=
  besideBlock s fun t => t.answer (.decoded (decodeWord s.cfg.toParams (hum ++ temp ++ cksum)))

/-- `SYMBOL` (R75): the bit is handed back beside the block's tick (log entries 5, 19). -/
def execSymbol (high low : Nat) (s : State) : Host.Outcome State Fault Refusal :=
  besideBlock s fun t => t.answer (.symbol (symbolResult s.cfg.toParams high low))

end Sys2Proof.Machine
end

