-- ==== Sys2Proof/Machine/Dispatch.lean ====
section
/-! DEFINITION. One arm per row of spec/opcode_table.json. -/

namespace Sys2Proof.Machine

def exec (i : Instr) (s : State) : Host.Outcome State Fault Refusal :=
  match i with
  | .nop cold => Sys2Proof.Machine.execNop cold s
  | .readWarm => Sys2Proof.Machine.execReadWarm s
  | .readCold => Sys2Proof.Machine.execReadCold s
  | .idle => Sys2Proof.Machine.execIdle s
  | .s0IdleHigh => Sys2Proof.Machine.execS0IdleHigh s
  | .s1StartLow => Sys2Proof.Machine.execS1StartLow s
  | .s2Release => Sys2Proof.Machine.execS2Release s
  | .w2RelHigh => Sys2Proof.Machine.execW2RelHigh s
  | .w3AckLow => Sys2Proof.Machine.execW3AckLow s
  | .w4AckHigh => Sys2Proof.Machine.execW4AckHigh s
  | .w5SbLow => Sys2Proof.Machine.execW5SbLow s
  | .w6SbHigh => Sys2Proof.Machine.execW6SbHigh s
  | .bLo => Sys2Proof.Machine.execBLo s
  | .bHi => Sys2Proof.Machine.execBHi s
  | .s8Restore => Sys2Proof.Machine.execS8Restore s
  | .s9Validate => Sys2Proof.Machine.execS9Validate s
  | .reserved13 => Sys2Proof.Machine.execReserved13 s
  | .reserved14 => Sys2Proof.Machine.execReserved14 s
  | .reserved15 => Sys2Proof.Machine.execReserved15 s
  | .errNone => Sys2Proof.Machine.execErrNone s
  | .e1 => Sys2Proof.Machine.execE1 s
  | .e2 => Sys2Proof.Machine.execE2 s
  | .e3 => Sys2Proof.Machine.execE3 s
  | .e4 => Sys2Proof.Machine.execE4 s
  | .e5 => Sys2Proof.Machine.execE5 s
  | .e6 => Sys2Proof.Machine.execE6 s
  | .e7 => Sys2Proof.Machine.execE7 s
  | .e8 => Sys2Proof.Machine.execE8 s
  | .e9 => Sys2Proof.Machine.execE9 s
  | .frame40 hum temp cksum => Sys2Proof.Machine.execFrame40 hum temp cksum s
  | .symbol high low => Sys2Proof.Machine.execSymbol high low s
  | .waitForLevel target timeout => Sys2Proof.Machine.execWaitForLevel target timeout s
  | .sample maxAttempts retryDelay coldStart => Sys2Proof.Machine.execSample maxAttempts retryDelay coldStart s

end Sys2Proof.Machine
end

