-- ==== Sys2Proof/Machine/Step.lean ====
section
/-! DEFINITION. One step of the machine: one tick (00_scope.md R8; 41_handshake_fsm.md R140). -/

namespace Sys2Proof.Machine

/-- One tick. `rst = 1` overrides everything (R220); before the first reset nothing else has a meaning (R223); then the
fetched instruction runs. -/
def step (s : State) : Host.Outcome State Fault Refusal :=
  if s.ports.rst then .next (resetTick s)
  else if s.live then
    match fetch s with
    | .ok i => exec i s
    | .reject _ => .refused .undecodable
  else .refused .beforeFirstReset

/-- `s` with a bare table word where the next step finds it (log entries 3, 12). -/
def State.withFetchWord (s : State) (nbits w : Nat) : State := placeWord s nbits w

end Sys2Proof.Machine
end

