-- ==== Sys2Proof/Safety.lean ====
section
/-! DEFINITION. What statements about runs are written in: the invariant of the registers (10_state.md R39, made inductive),
what a tick leaves outside the block, the transition table of 41_handshake_fsm.md R139 as a relation, and the ticks an attempt
can still last (70_reset_and_hazards.md R232). -/

namespace Sys2Proof.Machine

/-! ## The invariant -/

/-- The states before the capture of the payload (R120). -/
def beforeCapture : St → Bool
  | .s0IdleHigh => true
  | .s1StartLow => true
  | .s2Release => true
  | .w2RelHigh => true
  | .w3AckLow => true
  | .w4AckHigh => true
  | .w5SbLow => true
  | .w6SbHigh => true
  | _ => false

/-- The largest value `tmr` takes in a state (R22). -/
def timerLimit (p : Params) (st : St) : Nat :=
  match st with
  | .s0IdleHigh => p.tIdleUs - 1
  | .s1StartLow => p.tStartLow - 1
  | st => waitTimeout p st

/-- The consequences R39(a) to (h) of the rules, with what makes them inductive. -/
structure RegsInv (p : Params) (r : Regs) : Prop where
  /-- R39(a) -/
  valid_outcome : r.valid = true → r.done = true ∧ r.err = none ∧ r.st = .idle
  /-- R39(b) -/
  done_idle : r.done = true → r.st = .idle
  /-- R39(c) -/
  failed_has_code : r.done = true → r.valid = false → r.err ≠ none
  /-- R39(d) -/
  no_partial_result : r.valid = false → r.humX10 = 0 ∧ r.tempX10 = 0
  /-- R39(e) -/
  bitcnt_bound : r.bitcnt.toNat ≤ nBits
  /-- R39(e) -/
  bitcnt_full : r.bitcnt.toNat = nBits → r.st = .s8Restore ∨ r.st = .s9Validate ∨ r.st = .idle
  /-- R39(f) -/
  start_bit_cold : r.st = .w5SbLow ∨ r.st = .w6SbHigh → r.coldQ = true
  /-- R39(g) -/
  st_named : stNamed r.st = true
  /-- R22, and R39(h) for the document's constants -/
  timer_bound : r.tmr.toNat ≤ timerLimit p r.st
  /-- R26: an error is pending only in `S8_RESTORE`, where it is a timeout, or belongs to a finished attempt -/
  error_place : r.err ≠ none → r.done = true ∨ (r.st = .s8Restore ∧ r.err ≠ some .e8 ∧ r.err ≠ some .e9)
  /-- R150: validation is reached with forty captured bits only -/
  validate_full : r.st = .s9Validate ∨ (r.st = .s8Restore ∧ r.err = none) → r.bitcnt.toNat = nBits
  /-- R23, R24: nothing is captured before `B_LO` -/
  nothing_captured : beforeCapture r.st = true → r.bitcnt = 0 ∧ r.frame = 0
  /-- R159: a published reading is the decoder's `Ok` on the frame captured in that attempt -/
  reading_decoded : r.valid = true →
    ∃ h t, decodeWord p r.frame = .ok h t ∧ r.humX10.toNat = h ∧ r.tempX10 = BitVec.ofInt 16 t
  /-- R200 -/
  e8_decoded : r.err = some .e8 → decodeWord p r.frame = .e8
  /-- R201 -/
  e9_decoded : r.err = some .e9 → decodeWord p r.frame = .e9

/-- A host agent that sleeps between two attempts faces an idle block (R173). -/
def sessionInv (s : State) : Prop :=
  ∀ ss n, s.session = some ss → ss.phase = .pause n → s.regs.st = .idle

/-- The invariant of the machine; before the first reset it says nothing (R223). -/
def StateInv (s : State) : Prop := s.live = true → RegsInv s.cfg.toParams s.regs ∧ sessionInv s

/-! ## What a tick does outside the block -/

/-- The host's side of a tick: without a session nothing changes; in a session the agent's move (R171 to R173) is made from the
outputs of this tick. -/
def HostElapsed (s t : State) : Prop :=
  (s.session = none → t.session = none ∧ t.ret = s.ret) ∧
  ∀ ss, s.session = some ss →
    t.session = (hostMove ss s.regs.out (s.streamAt 0).stop).next ∧
    t.ret = (match (hostMove ss s.regs.out (s.streamAt 0).stop).result with
      | some x => some (.sampled x)
      | none => s.ret)

/-- After one tick the constants stand and the stream has moved on by one tick. -/
def StreamElapsed (s t : State) : Prop :=
  t.cfg = s.cfg ∧ t.live = s.live ∧ t.env = s.env.tail ∧ t.tick = s.tick + 1

/-- Everything but the ten registers and the unit call after one tick: the stream has moved on, the host agent has made its
move. -/
def TickElapsed (s t : State) : Prop := StreamElapsed s t ∧ HostElapsed s t

/-- No unit call is begun or ended. -/
def CallUntouched (s t : State) : Prop := t.call = s.call

/-- `exec i s` answers a next state with the registers `r` and everything else as after a tick. -/
def Completes (i : Instr) (s : State) (r : Regs) : Prop :=
  ∃ t, exec i s = .next t ∧ t.regs = r ∧ TickElapsed s t ∧ CallUntouched s t

/-- `exec i s` answers the next state of the micro-step that `st` names, all of it, but that a unit call has left the call
surface and handed back `x` (R60: beside the block's own tick). -/
def Returns (i : Instr) (s : State) (x : Ret) : Prop :=
  ∃ u, exec (stInstr s.regs.st) s = .next u ∧ exec i s = .next { u with call := none, ret := some x }

/-- The state after `n` steps, if none of them stops. -/
def after : Nat → State → Option State
  | 0, s => some s
  | n + 1, s =>
    match step s with
    | .next t => after n t
    | .fault _ => none
    | .refused _ => none

/-- The three cases of a wait micro-step (R108), for every state it is executed in. -/
def WaitBehaves (i : Instr) (target : Level) (timeout : Params → Nat) (k : ErrName) (accepted : State → Regs) : Prop :=
  ∀ s : State,
    (timeout s.cfg.toParams ≤ s.regs.tmr.toNat →
      Completes i s { s.regs with err := some k, tmr := 0, st := .s8Restore }) ∧
    (s.regs.tmr.toNat < timeout s.cfg.toParams → s.ports.smp = { s0 := target, s1 := target, s2 := target } →
      Completes i s (accepted s)) ∧
    (s.regs.tmr.toNat < timeout s.cfg.toParams → s.ports.smp ≠ { s0 := target, s1 := target, s2 := target } →
      Completes i s { s.regs with tmr := BitVec.ofNat 10 (s.regs.tmr.toNat + 1) })

/-- The row of the opcode table that raises an error (R73). -/
def errInstr : ErrName → Instr
  | .e1 => .e1
  | .e2 => .e2
  | .e3 => .e3
  | .e4 => .e4
  | .e5 => .e5
  | .e6 => .e6
  | .e7 => .e7
  | .e8 => .e8
  | .e9 => .e9

/-- The line shows three equal samples at `l` in the `n` ticks from tick `k` on. -/
def LineAt (s : State) (k n : Nat) (l : Level) : Prop := ∀ j < n, (s.streamAt (k + j)).smp = Triple.all l

/-- No `rst` in the next `n` ticks. -/
def NoReset (s : State) (n : Nat) : Prop := ∀ k < n, (s.streamAt k).rst = false

/-- The host does not stop in the next `n` ticks (R179). -/
def NoStop (s : State) (n : Nat) : Prop := ∀ k < n, (s.streamAt k).stop = false

/-- The tick in which the `k`-th of a row of symbols begins for a block that has just entered `B_LO`: after the phases of
those before it (R75, R132). -/
def symbolStart (high low : Nat → Nat) : Nat → Nat
  | 0 => 0
  | k + 1 => symbolStart high low k + (high k + low k)

/-! ## The transition table -/

/-- The line shows three equal samples at a level. -/
def Shows (i : Input) (l : Level) : Prop := i.smp.s0 = l ∧ i.smp.s1 = l ∧ i.smp.s2 = l

/-- R139, one constructor a row, in the table's order: from the registers `r` and the inputs `i` (with `rst = 0`) to the
registers of the next tick. Rows that differ in a number only are written once per state. -/
inductive Row (p : Params) (i : Input) (r : Regs) : Regs → Prop where
  | idleStay : r.st = .idle → i.start = false → Row p i r r
  | idleStart : r.st = .idle → i.start = true →
      Row p i r { st := .s0IdleHigh, tmr := 0, bitcnt := 0, frame := 0, coldQ := i.cold, err := none, done := false,
                  valid := false, humX10 := 0, tempX10 := 0 }
  | s0Stay : r.st = .s0IdleHigh → r.tmr.toNat < p.tIdleUs - 1 → Row p i r { r with tmr := r.tmr + 1 }
  | s0End : r.st = .s0IdleHigh → r.tmr.toNat = p.tIdleUs - 1 → Row p i r { r with tmr := 0, st := .s1StartLow }
  | s1Stay : r.st = .s1StartLow → r.tmr.toNat < p.tStartLow - 1 → Row p i r { r with tmr := r.tmr + 1 }
  | s1End : r.st = .s1StartLow → r.tmr.toNat = p.tStartLow - 1 → Row p i r { r with tmr := 0, st := .s2Release }
  | s2End : r.st = .s2Release → Row p i r { r with tmr := 0, st := .w2RelHigh }
  | w2Timeout : r.st = .w2RelHigh → p.toRelHigh ≤ r.tmr.toNat →
      Row p i r { r with err := some .e1, tmr := 0, st := .s8Restore }
  | w2Accept : r.st = .w2RelHigh → r.tmr.toNat < p.toRelHigh → Shows i .high →
      Row p i r { r with tmr := 1, st := .w3AckLow }
  | w2Stay : r.st = .w2RelHigh → r.tmr.toNat < p.toRelHigh → ¬ Shows i .high → Row p i r { r with tmr := r.tmr + 1 }
  | w3Timeout : r.st = .w3AckLow → p.toAckLow ≤ r.tmr.toNat →
      Row p i r { r with err := some .e2, tmr := 0, st := .s8Restore }
  | w3Accept : r.st = .w3AckLow → r.tmr.toNat < p.toAckLow → Shows i .low →
      Row p i r { r with tmr := 1, st := .w4AckHigh }
  | w3Stay : r.st = .w3AckLow → r.tmr.toNat < p.toAckLow → ¬ Shows i .low → Row p i r { r with tmr := r.tmr + 1 }
  | w4Timeout : r.st = .w4AckHigh → p.toAckHigh ≤ r.tmr.toNat →
      Row p i r { r with err := some .e3, tmr := 0, st := .s8Restore }
  | w4Cold : r.st = .w4AckHigh → r.tmr.toNat < p.toAckHigh → Shows i .high → r.coldQ = true →
      Row p i r { r with tmr := 1, st := .w5SbLow }
  | w4Warm : r.st = .w4AckHigh → r.tmr.toNat < p.toAckHigh → Shows i .high → r.coldQ = false →
      Row p i r { r with tmr := 1, st := .bLo }
  | w4Stay : r.st = .w4AckHigh → r.tmr.toNat < p.toAckHigh → ¬ Shows i .high → Row p i r { r with tmr := r.tmr + 1 }
  | w5Timeout : r.st = .w5SbLow → p.toSbLow ≤ r.tmr.toNat →
      Row p i r { r with err := some .e4, tmr := 0, st := .s8Restore }
  | w5Accept : r.st = .w5SbLow → r.tmr.toNat < p.toSbLow → Shows i .low →
      Row p i r { r with tmr := 1, st := .w6SbHigh }
  | w5Stay : r.st = .w5SbLow → r.tmr.toNat < p.toSbLow → ¬ Shows i .low → Row p i r { r with tmr := r.tmr + 1 }
  | w6Timeout : r.st = .w6SbHigh → p.toSbHigh ≤ r.tmr.toNat →
      Row p i r { r with err := some .e5, tmr := 0, st := .s8Restore }
  | w6Accept : r.st = .w6SbHigh → r.tmr.toNat < p.toSbHigh → Shows i .high → Row p i r { r with tmr := 1, st := .bLo }
  | w6Stay : r.st = .w6SbHigh → r.tmr.toNat < p.toSbHigh → ¬ Shows i .high → Row p i r { r with tmr := r.tmr + 1 }
  | bLoTimeout : r.st = .bLo → p.toBitLow ≤ r.tmr.toNat →
      Row p i r { r with err := some .e6, tmr := 0, st := .s8Restore }
  | bLoAccept : r.st = .bLo → r.tmr.toNat < p.toBitLow → Shows i .low →
      Row p i r { r with
        frame := (r.frame <<< 1) ||| (if p.thBit ≤ r.tmr.toNat then 1 else 0), tmr := 1, st := .bHi }
  | bLoStay : r.st = .bLo → r.tmr.toNat < p.toBitLow → ¬ Shows i .low → Row p i r { r with tmr := r.tmr + 1 }
  | bHiTimeout : r.st = .bHi → p.toBitHigh ≤ r.tmr.toNat →
      Row p i r { r with err := some .e7, tmr := 0, st := .s8Restore }
  | bHiLast : r.st = .bHi → r.tmr.toNat < p.toBitHigh → Shows i .high → r.bitcnt.toNat = 39 →
      Row p i r { r with bitcnt := 40, tmr := 0, st := .s8Restore }
  | bHiMore : r.st = .bHi → r.tmr.toNat < p.toBitHigh → Shows i .high → r.bitcnt.toNat < 39 →
      Row p i r { r with bitcnt := r.bitcnt + 1, tmr := 1, st := .bLo }
  | bHiStay : r.st = .bHi → r.tmr.toNat < p.toBitHigh → ¬ Shows i .high → Row p i r { r with tmr := r.tmr + 1 }
  | s8Failed : r.st = .s8Restore → r.err ≠ none → Row p i r { r with done := true, st := .idle }
  | s8Good : r.st = .s8Restore → r.err = none → Row p i r { r with st := .s9Validate }
  | s9Ok (h : Nat) (t : Int) : r.st = .s9Validate → decodeWord p r.frame = .ok h t →
      Row p i r { r with valid := true, humX10 := BitVec.ofNat 16 h, tempX10 := BitVec.ofInt 16 t, done := true, st := .idle }
  | s9Checksum : r.st = .s9Validate → decodeWord p r.frame = .e8 →
      Row p i r { r with err := some .e8, done := true, st := .idle }
  | s9Range : r.st = .s9Validate → decodeWord p r.frame = .e9 →
      Row p i r { r with err := some .e9, done := true, st := .idle }

/-! ## How long an attempt can last -/

/-- Ticks of one bit at most: both waits accept at their last poll (R232). -/
def bitTicks (p : Params) : Nat := (p.toBitLow - 1) + (p.toBitHigh - 1)

/-- Ticks of steps 5 and 6 at most, for a cold attempt (R232). -/
def startBitTicks (p : Params) (cold : Bool) : Nat := if cold then (p.toSbLow - 1) + (p.toSbHigh - 1) else 0

/-- The busy ticks an attempt can still last, this tick included (R232); 0 in `IDLE`. -/
def ticksLeft (p : Params) (r : Regs) : Nat :=
  let bits := nBits * bitTicks p + 2
  match r.st with
  | .s0IdleHigh => (p.tIdleUs - r.tmr.toNat) + p.tStartLow + 1 + p.toRelHigh + (p.toAckLow - 1) + (p.toAckHigh - 1) +
      startBitTicks p r.coldQ + bits
  | .s1StartLow => (p.tStartLow - r.tmr.toNat) + 1 + p.toRelHigh + (p.toAckLow - 1) + (p.toAckHigh - 1) +
      startBitTicks p r.coldQ + bits
  | .s2Release => 1 + p.toRelHigh + (p.toAckLow - 1) + (p.toAckHigh - 1) + startBitTicks p r.coldQ + bits
  | .w2RelHigh => (p.toRelHigh - r.tmr.toNat) + (p.toAckLow - 1) + (p.toAckHigh - 1) + startBitTicks p r.coldQ + bits
  | .w3AckLow => (p.toAckLow - r.tmr.toNat) + (p.toAckHigh - 1) + startBitTicks p r.coldQ + bits
  | .w4AckHigh => (p.toAckHigh - r.tmr.toNat) + startBitTicks p r.coldQ + bits
  | .w5SbLow => (p.toSbLow - r.tmr.toNat) + (p.toSbHigh - 1) + bits
  | .w6SbHigh => (p.toSbHigh - r.tmr.toNat) + bits
  | .bLo => (p.toBitLow - r.tmr.toNat) + (p.toBitHigh - 1) + (nBits - 1 - r.bitcnt.toNat) * bitTicks p + 2
  | .bHi => (p.toBitHigh - r.tmr.toNat) + (nBits - 1 - r.bitcnt.toNat) * bitTicks p + 2
  | .s8Restore => if r.err.isSome then 1 else 2
  | .s9Validate => 1
  | _ => 0

/-- The bound of R232 on the busy ticks of an attempt. -/
def attemptBound (p : Params) (cold : Bool) : Nat :=
  p.tIdleUs + p.tStartLow + 1 + p.toRelHigh + (p.toAckLow - 1) + (p.toAckHigh - 1) + startBitTicks p cold +
    (nBits * bitTicks p + 2)

/-! ## What a host that runs `sample` does and sees -/

/-- Counts over a run: cold and warm commands issued, idle ticks slept through, outcomes read, oldest first (R171 to R174). -/
structure Tally where
  cold : Nat
  warm : Nat
  slept : Nat
  outcomes : List DecodeOutcome
deriving DecidableEq, Repr

/-- One after the other. -/
def Tally.add (a b : Tally) : Tally where
  cold := a.cold + b.cold
  warm := a.warm + b.warm
  slept := a.slept + b.slept
  outcomes := a.outcomes ++ b.outcomes

/-- The outcome the host reads in a tick in which it waits for `done` (R171(3), (4)). -/
def outcomeRead (s : State) : List DecodeOutcome :=
  match s.session with
  | some { phase := .awaitDone _, .. } => s.regs.outcome.toList
  | _ => []

/-- One tick: a command counts where an idle block takes it; a tick is slept through if the block is idle, the host presents
nothing and its session goes on. -/
def tickTally (s : State) : Tally where
  cold := if s.session.isSome ∧ s.regs.st = .idle ∧ s.ports.start = true ∧ s.ports.cold = true then 1 else 0
  warm := if s.session.isSome ∧ s.regs.st = .idle ∧ s.ports.start = true ∧ s.ports.cold = false then 1 else 0
  slept := if (s.host.bind HostMove.next).isSome ∧ s.regs.st = .idle ∧ s.ports.start = false then 1 else 0
  outcomes := outcomeRead s

/-- The first `n` steps. -/
def tally : Nat → State → Tally
  | 0, _ => { cold := 0, warm := 0, slept := 0, outcomes := [] }
  | n + 1, s =>
    match step s with
    | .next t => (tickTally s).add (tally n t)
    | .fault _ => tickTally s
    | .refused _ => tickTally s

/-- A number of ticks within which a `sample` call returns, if neither `rst` nor the host's stop comes: an attempt that was
running, a cold one, `m` warm ones, each with its command, its delay and the tick of its outcome (R171, R173, R232). -/
def sampleBound (p : Params) (m d : Nat) : Nat := (m + 2) * (attemptBound p true + d + 2)

end Sys2Proof.Machine
end

