-- ==== Sys2Proof/Certificates/Slice0/Obligations.lean ====
section
/-! DEFINITION. The statements for the provers, in the order of OBLIGATIONS.json. -/

open Sys2Proof Sys2Proof.Machine

/-! ## Reset and the step -/

/-- R37, R220: after a tick with `rst = 1` every register holds its reset value, whatever the state and the other inputs were,
and the outputs are those of an idle block that drives the line HIGH. -/
def Obligations.ResetTickGivesTheTable : Prop :=
  ∀ s : State, s.ports.rst = true → ∃ t, step s = .next t ∧
    t.regs = { st := .idle, tmr := 0, bitcnt := 0, frame := 0, coldQ := false, err := none, done := false, valid := false,
               humX10 := 0, tempX10 := 0 } ∧
    t.regs.out = { sdaOe := true, sdaOut := .high, busy := false, done := false, valid := false, err := 0, humX10 := 0,
                   tempX10 := 0 }

/-- The model starts in the state R37 leaves, with the document's constants of R5 and the defaults of R6; that it starts after
the first reset, with nothing listed and nothing pending, is the model's choice (log entries 2, 11, 22). -/
def Obligations.ResetStateOfTheModel : Prop :=
  State.reset.regs = { st := .idle, tmr := 0, bitcnt := 0, frame := 0, coldQ := false, err := none, done := false,
                       valid := false, humX10 := 0, tempX10 := 0 } ∧
  State.reset.cfg = Config.standard ∧ State.reset.live = true ∧ State.reset.env = [] ∧ State.reset.session = none ∧
  State.reset.call = none

/-- R5, R6: the named constants have the document's values, and the open parameters their defaults. -/
def Obligations.StandardConstants : Prop :=
  Config.standard.tStartLow = 1000 ∧ Config.standard.toRelHigh = 100 ∧ Config.standard.toAckLow = 100 ∧
  Config.standard.toAckHigh = 100 ∧ Config.standard.toSbLow = 200 ∧ Config.standard.toSbHigh = 200 ∧
  Config.standard.toBitLow = 500 ∧ Config.standard.toBitHigh = 500 ∧ Config.standard.thBit = 50 ∧ nBits = 40 ∧ nBytes = 5 ∧
  nSamples = 3 ∧ Config.standard.humMin = 0 ∧ Config.standard.humMax = 1000 ∧ Config.standard.tempMin = -400 ∧
  Config.standard.tempMax = 800 ∧ Config.standard.maxAttemptsDefault = 10 ∧ Config.standard.tIdleUs = 1 ∧
  Config.standard.signMode = .unsigned

/-- R223, U1: before the first tick with `rst = 1` nothing has a meaning (the refusal is the model's form of it, log entry
11). -/
def Obligations.NothingRunsBeforeTheFirstReset : Prop :=
  ∀ s : State, s.live = false → s.ports.rst = false → step s = .refused .beforeFirstReset

/-- A step runs the decoded instruction: with `rst = 0` after the first reset, `step` is `exec` of what the fetch decodes,
nothing added around it. The fetch is the micro-step `st` names (R21, R72) unless a unit call can run beside it, a
`wait_for_level` only as the call the wait state makes (log entries 5, 6); whichever it is, the registers become what the
micro-step's meaning makes them (R60, R140). -/
def Obligations.StepRunsTheFetchedInstruction : Prop :=
  ∀ s : State, s.live = true → s.ports.rst = false →
    (∀ i, fetch s = .ok i → step s = exec i s) ∧
    (s.session ≠ none ∨ s.call = none ∨ stNamed s.regs.st = false →
      fetch s = decode { fmt := .state, bits := (stCode s.regs.st).toNat } ∧ step s = exec (stInstr s.regs.st) s) ∧
    (∀ c, s.session = none → stNamed s.regs.st = true → s.call = some c → (∀ l n, c ≠ .wait l n) → fetch s = callInstr c) ∧
    (∀ l n, s.session = none → s.call = some (.wait l n) →
      (isWait s.regs.st = true → l = waitTarget s.regs.st → n = waitTimeout s.cfg.toParams s.regs.st →
        fetch s = .ok (.waitForLevel l n)) ∧
      (isWait s.regs.st = false ∨ l ≠ waitTarget s.regs.st ∨ n ≠ waitTimeout s.cfg.toParams s.regs.st →
        step s = exec (stInstr s.regs.st) s)) ∧
    (stNamed s.regs.st = true → ∃ t u, step s = .next t ∧ exec (stInstr s.regs.st) s = .next u ∧ t.regs = u.regs ∧
      StreamElapsed s t)

/-! ## Encodings -/

/-- R72, R73: words written out from the tables, and what they decode to. -/
def Obligations.TableWordsDecode : Prop :=
  decode { fmt := .cmd, bits := 0b00 } = .ok (.nop false) ∧ decode { fmt := .cmd, bits := 0b01 } = .ok (.nop true) ∧
  decode { fmt := .cmd, bits := 0b10 } = .ok .readWarm ∧ decode { fmt := .cmd, bits := 0b11 } = .ok .readCold ∧
  decode { fmt := .state, bits := 0b0100 } = .ok .w2RelHigh ∧ decode { fmt := .state, bits := 0b1100 } = .ok .s9Validate ∧
  decode { fmt := .state, bits := 0b1101 } = .ok .reserved13 ∧ decode { fmt := .err, bits := 0b1001 } = .ok .e9 ∧
  decode { fmt := .err, bits := 0b1010 } = .reject .errCodeUnused ∧
  decode { fmt := .frame40, bits := 0x01900110A2 } = .ok (.frame40 0x0190 0x0110 0xA2)

/-- Decode and encode agree, both ways: the word of every instruction that has one decodes to it, and a word that decodes to
an instruction is that instruction's only word. -/
def Obligations.DecodeAndEncodeAgree : Prop :=
  (∀ (i : Instr) (w : TableWord), encode i = some w → decode w = .ok i) ∧
  (∀ (i : Instr) (w : TableWord), decode w = .ok i → encode i = some w)

/-- R21, R72, R73: the codes of `st` and `err` are the tables' and no two states, no two errors share one. -/
def Obligations.CodesOfStatesAndErrors : Prop :=
  (∀ a b : St, stCode a = stCode b → a = b) ∧ (∀ c : BitVec 4, stCode (stOfCode c) = c) ∧
  (∀ a b : Option ErrName, errCode a = errCode b → a = b) ∧ (∀ e : Option ErrName, (errCode e).toNat ≤ 9) ∧
  (∀ x : St, encode (stInstr x) = some { fmt := .state, bits := (stCode x).toNat }) ∧
  (∀ k : ErrName, encode (errInstr k) = some { fmt := .err, bits := (errCode (some k)).toNat })

/-! ## Host commands -/

/-- R122: `NOP` in `IDLE` writes no register and the line stays driven HIGH; a read command presented to a busy block writes
none either, and in a busy block neither command bit on the ports changes anything that the tick does. -/
def Obligations.NopAndBusyCommandsWriteNothing : Prop :=
  ∀ s : State,
    (∀ c, Completes (.nop c) s s.regs) ∧
    (s.regs.st = .idle → s.ports.start = false →
      Completes .idle s s.regs ∧ s.regs.out.sdaOe = true ∧ s.regs.out.sdaOut = .high) ∧
    (s.regs.st ≠ .idle → Completes .readWarm s s.regs ∧ Completes .readCold s s.regs) ∧
    (s.regs.st ≠ .idle → ∀ (i : Input) (rest : List Input) (a c : Bool),
      step { s with env := { i with start := a, cold := c } :: rest } = step { s with env := i :: rest })

/-- R121: a read command, `0b10` or `0b11` in `IDLE`, latches `cold`, clears everything of the previous attempt and makes the
block busy from the next tick on; a `start` still held while it is busy changes nothing. -/
def Obligations.ReadCommandStartsAnAttempt : Prop :=
  decode { fmt := .cmd, bits := 0b10 } = .ok .readWarm ∧ decode { fmt := .cmd, bits := 0b11 } = .ok .readCold ∧
  ∀ s : State, s.regs.st = .idle →
    Completes .readWarm s { st := .s0IdleHigh, tmr := 0, bitcnt := 0, frame := 0, coldQ := false, err := none, done := false,
                            valid := false, humX10 := 0, tempX10 := 0 } ∧
    Completes .readCold s { st := .s0IdleHigh, tmr := 0, bitcnt := 0, frame := 0, coldQ := true, err := none, done := false,
                            valid := false, humX10 := 0, tempX10 := 0 } ∧
    (s.ports.start = true → ∃ t, exec .idle s = .next t ∧ t.regs.out.busy = true ∧
      t.regs = { st := .s0IdleHigh, tmr := 0, bitcnt := 0, frame := 0, coldQ := s.ports.cold, err := none, done := false,
                 valid := false, humX10 := 0, tempX10 := 0 }) ∧
    ∀ (t : State) (i : Input) (rest : List Input), exec .idle s = .next t → t.regs.st ≠ .idle →
      step { t with env := { i with start := true } :: rest } = step { t with env := { i with start := false } :: rest }

/-- R71, R122: an `IDLE` tick without `start` keeps every register, so the outcome is held; with `start` it begins an attempt
in the mode that `cold` says, whatever the last outcome was (R203(c)). -/
def Obligations.IdleHoldsOrAccepts : Prop :=
  ∀ s : State, (s.ports.start = false → Completes .idle s s.regs) ∧
    (s.ports.start = true →
      Completes .idle s { st := .s0IdleHigh, tmr := 0, bitcnt := 0, frame := 0, coldQ := s.ports.cold, err := none,
                          done := false, valid := false, humX10 := 0, tempX10 := 0 })

/-- In `IDLE` the two command bits decode to a CMD row (R71), and the `IDLE` tick does what that row does: the model's
deduction from R71, R121 and R122 (log entry 14). -/
def Obligations.IdleRunsTheCommandRow : Prop :=
  ∀ (s : State) (i : Instr), s.regs.st = .idle →
    decode { fmt := .cmd, bits := (if s.ports.start then 2 else 0) + (if s.ports.cold then 1 else 0) } = .ok i →
    exec .idle s = exec i s

/-- R31: `rst` overrides every other input; `start` is read in `IDLE` only, `cold` only where a command is accepted, `smp` only
in a wait state. Two inputs that agree on what is read give the same step (U6). That this holds whatever unit call is pending rests
on the model's choice of how a call runs (log entry 5); and the host's own decision to stop, which is no port and is looked at only
by a session, is the model's choice too (log entry 9). -/
def Obligations.UnreadInputsDoNotMatter : Prop :=
  ∀ (s : State) (i j : Input) (rest : List Input), i.rst = j.rst → (s.session ≠ none → i.stop = j.stop) →
    (i.rst = false → s.regs.st = .idle → i.start = j.start ∧ (i.start = true → i.cold = j.cold)) →
    (i.rst = false → isWait s.regs.st = true → i.smp = j.smp) →
    step { s with env := i :: rest } = step { s with env := j :: rest }

/-! ## The driving steps -/

/-- R123, R124, R125: the driving states count their ticks and go on; every other register is unchanged. `S2_RELEASE`, code 3,
drives the line HIGH for its one tick and then releases it. -/
def Obligations.DrivingStatesCountAndGoOn : Prop :=
  stCode .s2Release = 3 ∧
  ∀ s : State,
    (s.regs.tmr.toNat = s.cfg.tIdleUs - 1 → Completes .s0IdleHigh s { s.regs with tmr := 0, st := .s1StartLow }) ∧
    (s.regs.tmr.toNat ≠ s.cfg.tIdleUs - 1 → Completes .s0IdleHigh s { s.regs with tmr := s.regs.tmr + 1 }) ∧
    (s.regs.tmr.toNat = s.cfg.tStartLow - 1 → Completes .s1StartLow s { s.regs with tmr := 0, st := .s2Release }) ∧
    (s.regs.tmr.toNat ≠ s.cfg.tStartLow - 1 → Completes .s1StartLow s { s.regs with tmr := s.regs.tmr + 1 }) ∧
    Completes .s2Release s { s.regs with tmr := 0, st := .w2RelHigh } ∧
    (s.regs.st = .s2Release → s.regs.out.sdaOe = true ∧ s.regs.out.sdaOut = .high) ∧
    (s.regs.st = .w2RelHigh → s.regs.out.sdaOe = false)

/-- R135: `S8_RESTORE` finishes the attempt if an error is pending, else goes on to the validation. -/
def Obligations.RestoreFinishesOrValidates : Prop :=
  ∀ s : State,
    (s.regs.err ≠ none → Completes .s8Restore s { s.regs with done := true, st := .idle }) ∧
    (s.regs.err = none → Completes .s8Restore s { s.regs with st := .s9Validate })

/-- R124: micro-step 2, the start signal, lasts exactly `T_START_LOW` ticks (1000 with the document's constants): in each of
them the line is driven LOW and only `tmr` counts, then `S2_RELEASE` follows. -/
def Obligations.StartSignalLastsItsTicks : Prop :=
  stCode .s1StartLow = 2 ∧ Config.standard.tStartLow = 1000 ∧
  ∀ s : State, s.live = true → s.regs.st = .s1StartLow → s.regs.tmr = 0 → NoReset s s.cfg.tStartLow →
    (∀ k < s.cfg.tStartLow, ∃ u, after k s = some u ∧ u.regs = { s.regs with tmr := BitVec.ofNat 10 k } ∧
      u.regs.out.sdaOe = true ∧ u.regs.out.sdaOut = .low) ∧
    ∃ u, after s.cfg.tStartLow s = some u ∧ u.regs = { s.regs with tmr := 0, st := .s2Release }

/-! ## The waits -/

/-- R101: a poll accepts only three samples equal to the target; two of three are not enough. -/
def Obligations.PollAcceptsUnanimityOnly : Prop :=
  ∀ (a b c l : Level), unanimous { s0 := a, s1 := b, s2 := c } l = true ↔ a = l ∧ b = l ∧ c = l

/-- R126, R127, R128 (and R129, R130): codes, targets, timeouts, failure codes and successors of the five handshake waits; the
line is released in each. -/
def Obligations.HandshakeWaits : Prop :=
  [St.w2RelHigh, .w3AckLow, .w4AckHigh, .w5SbLow, .w6SbHigh].map stCode = [4, 5, 6, 7, 8] ∧
  [Config.standard.toRelHigh, Config.standard.toAckLow, Config.standard.toAckHigh, Config.standard.toSbLow,
    Config.standard.toSbHigh] = [100, 100, 100, 200, 200] ∧
  (∀ r : Regs, r.st ∈ [St.w2RelHigh, .w3AckLow, .w4AckHigh, .w5SbLow, .w6SbHigh] → r.out.sdaOe = false) ∧
  WaitBehaves .w2RelHigh .high (fun p => p.toRelHigh) .e1 (fun s => { s.regs with tmr := 1, st := .w3AckLow }) ∧
  WaitBehaves .w3AckLow .low (fun p => p.toAckLow) .e2 (fun s => { s.regs with tmr := 1, st := .w4AckHigh }) ∧
  WaitBehaves .w4AckHigh .high (fun p => p.toAckHigh) .e3
    (fun s => { s.regs with tmr := 1, st := if s.regs.coldQ then .w5SbLow else .bLo }) ∧
  WaitBehaves .w5SbLow .low (fun p => p.toSbLow) .e4 (fun s => { s.regs with tmr := 1, st := .w6SbHigh }) ∧
  WaitBehaves .w6SbHigh .high (fun p => p.toSbHigh) .e5 (fun s => { s.regs with tmr := 1, st := .bLo })

/-- R133: `B_LO`, code 9, waits for LOW with the line released, classifies the elapsed time (1 from `TH_BIT` on) and shifts the
bit in at the right; E6 at the timeout. -/
def Obligations.BitLowWaitCapturesABit : Prop :=
  stCode .bLo = 9 ∧ Config.standard.toBitLow = 500 ∧ Config.standard.thBit = 50 ∧
  (∀ r : Regs, r.st = .bLo → r.out.sdaOe = false) ∧
  WaitBehaves .bLo .low (fun p => p.toBitLow) .e6 (fun s =>
    { s.regs with
      frame := BitVec.ofNat 40 (2 * s.regs.frame.toNat + if s.cfg.thBit ≤ s.regs.tmr.toNat then 1 else 0)
      tmr := 1
      st := .bHi })

/-- R134: `B_HI`, code 10, waits for HIGH with the line released, counts the bit and leaves the loop after the 40th; E7 at the
timeout. -/
def Obligations.BitHighWaitCountsTheBit : Prop :=
  stCode .bHi = 10 ∧ Config.standard.toBitHigh = 500 ∧ (∀ r : Regs, r.st = .bHi → r.out.sdaOe = false) ∧
  WaitBehaves .bHi .high (fun p => p.toBitHigh) .e7 (fun s =>
    if s.regs.bitcnt.toNat = 39 then { s.regs with bitcnt := 40, tmr := 0, st := .s8Restore }
    else { s.regs with bitcnt := s.regs.bitcnt + 1, tmr := 1, st := .bLo })

/-- R104: `wait_for_level` returns the least elapsed time below the timeout at which the triple is unanimous at the target, and
`Timeout` exactly when there is none. The spec marks R104 as its own inference. -/
def Obligations.WaitReturnsTheFirstUnanimousPoll : Prop :=
  ∀ (l : Level) (n : Nat) (samples : Nat → Triple),
    (∀ e, waitForLevel l n samples = .elapsed e ↔
      e < n ∧ samples e = Triple.all l ∧ ∀ k < e, samples k ≠ Triple.all l) ∧
    (waitForLevel l n samples = .timeout ↔ ∀ k < n, samples k ≠ Triple.all l)

/-- R101 to R103, R105, R108: one tick of a `wait_for_level` call in a wait state, for every target and every timeout that `tmr`
can reach: the timeout without a poll once the time has elapsed, the elapsed time on an accept, else only `tmr` counts on; with
the wait state's own operands it is that micro-step's tick. It is refused where the line is driven (R105) and for a longer
timeout (R234, U13). That the call is a row of its own that hands back a result is the model's choice (log entries 5, 6). -/
def Obligations.WaitCallPollsOncePerTick : Prop :=
  ∀ (l : Level) (n : Nat) (s : State),
    (isWait s.regs.st = true → n ≤ 1023 →
      (n ≤ s.regs.tmr.toNat → ∃ t, exec (.waitForLevel l n) s = .next t ∧ StreamElapsed s t ∧ t.call = none ∧
        t.ret = some (.waited .timeout) ∧
        t.regs = { s.regs with err := some (waitError s.regs.st), tmr := 0, st := .s8Restore }) ∧
      (s.regs.tmr.toNat < n → s.ports.smp = { s0 := l, s1 := l, s2 := l } →
        ∃ t, exec (.waitForLevel l n) s = .next t ∧ StreamElapsed s t ∧ t.call = none ∧
          t.ret = some (.waited (.elapsed s.regs.tmr.toNat)) ∧ t.regs = acceptAction s.cfg.toParams s.regs) ∧
      (s.regs.tmr.toNat < n → s.ports.smp ≠ { s0 := l, s1 := l, s2 := l } →
        ∃ t, exec (.waitForLevel l n) s = .next t ∧ TickElapsed s t ∧ CallUntouched s t ∧
          t.regs = { s.regs with tmr := BitVec.ofNat 10 (s.regs.tmr.toNat + 1) })) ∧
    (isWait s.regs.st = true →
      ∃ t u, exec (.waitForLevel (waitTarget s.regs.st) (waitTimeout s.cfg.toParams s.regs.st)) s = .next t ∧
        exec (stInstr s.regs.st) s = .next u ∧ t.regs = u.regs) ∧
    (isWait s.regs.st = false → exec (.waitForLevel l n) s = .refused .lineDriven) ∧
    (isWait s.regs.st = true → 1023 < n → exec (.waitForLevel l n) s = .refused .timeoutTooLong)

/-- R103: run tick by tick from the elapsed time that `tmr` holds, the `wait_for_level` call of a wait state returns `Elapsed(e)`
in the tick `e` of the first unanimous triple if `e` is below the timeout, with the state's accept action; if there is none it is
still pending when `tmr` reaches the timeout and returns `Timeout` in that tick, whatever the tick shows, with the state's error.
That it is a call of its own that hands back a result is the model's choice (log entries 5, 6). -/
def Obligations.WaitCallRunsToItsResult : Prop :=
  ∀ (l : Level) (n b : Nat) (s : State), s.live = true → isWait s.regs.st = true → s.session = none →
    l = waitTarget s.regs.st → n = waitTimeout s.cfg.toParams s.regs.st → s.call = some (.wait l n) →
    b = s.regs.tmr.toNat → b ≤ n → NoReset s (n - b + 1) →
    (∀ e, b ≤ e → e < n → (s.streamAt (e - b)).smp = Triple.all l → (∀ k < e - b, (s.streamAt k).smp ≠ Triple.all l) →
      ∃ u, after (e - b + 1) s = some u ∧ u.ret = some (.waited (.elapsed e)) ∧ u.call = none ∧
        u.regs = acceptAction s.cfg.toParams { s.regs with tmr := BitVec.ofNat 10 e }) ∧
    ((∀ k < n - b, (s.streamAt k).smp ≠ Triple.all l) →
      (∃ v, after (n - b) s = some v ∧ v.call = some (.wait l n) ∧ v.ret = s.ret ∧
        v.regs = { s.regs with tmr := BitVec.ofNat 10 n }) ∧
      ∃ u, after (n - b + 1) s = some u ∧ u.ret = some (.waited .timeout) ∧ u.call = none ∧
        u.regs = { s.regs with err := some (waitError s.regs.st), tmr := 0, st := .s8Restore })

/-- R102, R104, R108, R111: a wait micro-step agrees with R104. From elapsed time `tmr`, the block stays in the wait state with
`tmr` counting up to the first poll that is unanimous at the target, or to the timeout; nothing else is written meanwhile. The
spec marks R104 and R108 as its own inferences. -/
def Obligations.WaitStatesAgreeWithTheWaitFunction : Prop :=
  ∀ (s : State), s.live = true → isWait s.regs.st = true → s.regs.tmr.toNat ≤ waitTimeout s.cfg.toParams s.regs.st →
    NoReset s (waitTimeout s.cfg.toParams s.regs.st - s.regs.tmr.toNat + 1) →
    (∀ e, waitFrom (waitTarget s.regs.st) (fun k => (s.streamAt (k - s.regs.tmr.toNat)).smp)
        (waitTimeout s.cfg.toParams s.regs.st - s.regs.tmr.toNat) s.regs.tmr.toNat = .elapsed e →
      ∃ u, after (e - s.regs.tmr.toNat) s = some u ∧ u.regs = { s.regs with tmr := BitVec.ofNat 10 e } ∧
        u.ports.smp = Triple.all (waitTarget s.regs.st)) ∧
    (waitFrom (waitTarget s.regs.st) (fun k => (s.streamAt (k - s.regs.tmr.toNat)).smp)
        (waitTimeout s.cfg.toParams s.regs.st - s.regs.tmr.toNat) s.regs.tmr.toNat = .timeout →
      ∃ u, after (waitTimeout s.cfg.toParams s.regs.st - s.regs.tmr.toNat + 1) s = some u ∧
        u.regs = { s.regs with err := some (waitError s.regs.st), tmr := 0, st := .s8Restore })

/-! ## Bits and symbols -/

/-- R75: the bit of a symbol is 1 from a HIGH phase of `TH_BIT` on; each phase must end within its timeout. The row hands its
result back beside the block's own tick (the model's choice, log entries 5, 19). -/
def Obligations.SymbolIsClassified : Prop :=
  ∀ (high low : Nat) (s : State), stNamed s.regs.st = true →
    (high < s.cfg.toBitLow → low < s.cfg.toBitHigh →
      Returns (.symbol high low) s (.symbol (.bit (decide (s.cfg.thBit ≤ high))))) ∧
    (s.cfg.toBitLow ≤ high → Returns (.symbol high low) s (.symbol .e6)) ∧
    (high < s.cfg.toBitLow → s.cfg.toBitHigh ≤ low → Returns (.symbol high low) s (.symbol .e7))

/-- R75, R132 to R134: a symbol on the line is read as its classification says (log entry 19). The block that has just entered
`B_LO` (its clock at 1, one tick of the HIGH phase gone) reads the rest of a HIGH phase of `high` ticks, a LOW phase of `low`
ticks and the first HIGH tick after it, in `high + low` ticks: the bit is in `frame`, the bit is counted, and nothing else has
changed. Forty symbols (R120, R56, X7), read from the first `B_LO` on, end in `S8_RESTORE` with the k-th bit at `frame[39 − k]`,
one tick later in `S9_VALIDATE`, and one tick after that the outcome of the attempt is the decoder's outcome of that frame. -/
def Obligations.SymbolOnTheLineIsCaptured : Prop :=
  (∀ (s : State) (high low : Nat) (b : Bool), s.live = true → s.regs.st = .bLo → s.regs.tmr = 1 →
    s.regs.bitcnt.toNat < 40 → 1 ≤ high → 1 ≤ low → symbolResult s.cfg.toParams high low = .bit b →
    NoReset s (high + low) → LineAt s 0 (high - 1) .high → LineAt s (high - 1) low .low → LineAt s (high - 1 + low) 1 .high →
    ∃ u, after (high + low) s = some u ∧
      u.regs = { s.regs with
        frame := BitVec.ofNat 40 (2 * s.regs.frame.toNat + if b then 1 else 0)
        bitcnt := s.regs.bitcnt + 1
        tmr := if s.regs.bitcnt.toNat = 39 then 0 else 1
        st := if s.regs.bitcnt.toNat = 39 then .s8Restore else .bLo }) ∧
  ∀ (s : State) (high low : Nat → Nat) (bit : Nat → Bool) (n : Nat), s.live = true → RegsInv s.cfg.toParams s.regs →
    s.regs.st = .bLo → s.regs.tmr = 1 → s.regs.bitcnt = 0 → n = symbolStart high low 40 → NoReset s (n + 2) →
    (∀ k < 40, 1 ≤ high k ∧ 1 ≤ low k ∧ symbolResult s.cfg.toParams (high k) (low k) = .bit (bit k) ∧
      LineAt s (symbolStart high low k) (high k - 1) .high ∧
      LineAt s (symbolStart high low k + (high k - 1)) (low k) .low ∧
      LineAt s (symbolStart high low k + (high k - 1 + low k)) 1 .high) →
    ∃ (f : Frame) (u v w : State), (∀ k < 40, f.getLsbD (39 - k) = bit k) ∧
      after n s = some u ∧ u.regs = { s.regs with frame := f, bitcnt := 40, tmr := 0, st := .s8Restore } ∧
      after (n + 1) s = some v ∧ v.regs = { s.regs with frame := f, bitcnt := 40, tmr := 0, st := .s9Validate } ∧
      after (n + 2) s = some w ∧ w.regs.out.busy = false ∧ w.regs.out.done = true ∧
      w.regs.outcome = some (match decodeWord s.cfg.toParams f with
        | .ok h t => .ok (BitVec.ofNat 16 h) (BitVec.ofInt 16 t)
        | .e8 => .err .e8
        | .e9 => .err .e9)

/-- R24, R56: forty captured bits lie in `frame` most significant first: the k-th is bit 7 − (k mod 8) of byte k div 8, which is
`frame[39 − k]`, whatever was there before. -/
def Obligations.FortyBitsLieMostSignificantFirst : Prop :=
  ∀ (p : Params) (r : Regs) (es : List Nat), es.length = 40 →
    ∀ (k : Nat) (h : k < es.length),
      (frameByte (es.foldl (fun q e => captureBit p q e) r).frame (k / 8)).getLsbD (7 - k % 8) = decide (p.thBit ≤ es[k]) ∧
      (es.foldl (fun q e => captureBit p q e) r).frame.getLsbD (39 - k) = decide (p.thBit ≤ es[k])

/-- R24, R57, R78: the bytes of a frame and the two big-endian fields. -/
def Obligations.FrameBytesAndFields : Prop :=
  ∀ f : Frame,
    (frameByte f 0).toNat = f.toNat / 4294967296 ∧ (frameByte f 1).toNat = f.toNat / 16777216 % 256 ∧
    (frameByte f 2).toNat = f.toNat / 65536 % 256 ∧ (frameByte f 3).toNat = f.toNat / 256 % 256 ∧
    (frameByte f 4).toNat = f.toNat % 256 ∧
    humRaw (frameByte f 0) (frameByte f 1) = (f.extractLsb' 24 16).toNat ∧
    tempRaw (frameByte f 2) (frameByte f 3) = (f.extractLsb' 8 16).toNat

/-! ## Validation -/

/-- R152 to R156: `decode_frame` gives E8 exactly on a wrong checksum, `Ok` exactly on a right checksum with both values
in range and then these values, E9 otherwise. -/
def Obligations.FrameHasExactlyOneOutcome : Prop :=
  ∀ (p : Params) (b0 b1 b2 b3 b4 : Byte),
    (decodeFrame p b0 b1 b2 b3 b4 = .e8 ↔
      b4.toNat ≠ (b0.toNat + b1.toNat + b2.toNat + b3.toNat) % 256) ∧
    (∀ h t, decodeFrame p b0 b1 b2 b3 b4 = .ok h t ↔
      b4.toNat = (b0.toNat + b1.toNat + b2.toNat + b3.toNat) % 256 ∧
      h = b0.toNat * 256 + b1.toNat ∧ t = temperatureOf p.signMode (b2.toNat * 256 + b3.toNat) ∧
      p.humMin ≤ h ∧ h ≤ p.humMax ∧ p.tempMin ≤ t ∧ t ≤ p.tempMax) ∧
    (decodeFrame p b0 b1 b2 b3 b4 = .e9 ↔
      b4.toNat = (b0.toNat + b1.toNat + b2.toNat + b3.toNat) % 256 ∧
      ¬ (p.humMin ≤ (b0.toNat * 256 + b1.toNat : Nat) ∧ ((b0.toNat * 256 + b1.toNat : Nat) : Int) ≤ p.humMax ∧
         p.tempMin ≤ temperatureOf p.signMode (b2.toNat * 256 + b3.toNat) ∧
         temperatureOf p.signMode (b2.toNat * 256 + b3.toNat) ≤ p.tempMax))

/-- R154: the two readings of the temperature field, the default one and the sign-magnitude one, with minus zero; a set top bit
is out of range in the default reading. Neither reading gives −32768. -/
def Obligations.TemperatureSignModes : Prop :=
  Config.standard.signMode = .unsigned ∧ temperatureOf .signMagnitude 0x8000 = 0 ∧
  ∀ raw : Nat, raw < 65536 →
    temperatureOf .unsigned raw = raw ∧
    (raw < 32768 → temperatureOf .signMagnitude raw = raw) ∧
    (32768 ≤ raw → temperatureOf .signMagnitude raw = 32768 - (raw : Int) ∧
      Config.standard.tempMax < temperatureOf .unsigned raw) ∧
    -32767 ≤ temperatureOf .signMagnitude raw ∧ temperatureOf .signMagnitude raw ≤ 32767

/-- R150: the `S9_VALIDATE` tick, written out on the number that `frame` holds: checksum first, then the range. It rests on
R158 too, which the spec marks as its own inference. -/
def Obligations.ValidatePublishesTheOutcome : Prop :=
  ∀ (s : State) (f b0 b1 b2 b3 b4 : Nat) (t : Int), f = s.regs.frame.toNat → b0 = f / 4294967296 →
    b1 = f / 16777216 % 256 → b2 = f / 65536 % 256 → b3 = f / 256 % 256 → b4 = f % 256 →
    t = (match s.cfg.signMode with
      | .unsigned => ((b2 * 256 + b3 : Nat) : Int)
      | .signMagnitude => if 32768 ≤ b2 * 256 + b3 then 32768 - ((b2 * 256 + b3 : Nat) : Int) else ((b2 * 256 + b3 : Nat) : Int)) →
    Completes .s9Validate s
      (if b4 ≠ (b0 + b1 + b2 + b3) % 256 then { s.regs with err := some .e8, done := true, st := .idle }
       else if s.cfg.humMin ≤ (b0 * 256 + b1 : Nat) ∧ ((b0 * 256 + b1 : Nat) : Int) ≤ s.cfg.humMax ∧ s.cfg.tempMin ≤ t ∧
           t ≤ s.cfg.tempMax then
         { s.regs with valid := true, humX10 := BitVec.ofNat 16 (b0 * 256 + b1), tempX10 := BitVec.ofInt 16 t, done := true,
                       st := .idle }
       else { s.regs with err := some .e9, done := true, st := .idle })

/-- R77, R158: `decode_frame` on the fields of a FRAME40 word, handed back beside the block's own tick (the call is the model's
choice, log entry 5). The spec marks R158 as its own inference. -/
def Obligations.FrameWordIsDecoded : Prop :=
  ∀ (hum temp : BitVec 16) (cksum : BitVec 8) (s : State) (t : Int), stNamed s.regs.st = true →
    t = temperatureOf s.cfg.signMode temp.toNat → Returns (.frame40 hum temp cksum) s (.decoded
      (if cksum.toNat ≠ (hum.toNat / 256 + hum.toNat % 256 + temp.toNat / 256 + temp.toNat % 256) % 256 then .e8
       else if s.cfg.humMin ≤ (hum.toNat : Int) ∧ (hum.toNat : Int) ≤ s.cfg.humMax ∧ s.cfg.tempMin ≤ t ∧ t ≤ s.cfg.tempMax then
         .ok hum.toNat t
       else .e9))

/-- R28, R159: no path publishes a reading without validation. `valid` rises only in `S9_VALIDATE`, on the decoder's `Ok` of
the captured frame, with exactly its values. The spec marks R159 as its own inference. -/
def Obligations.NoReadingBypassesValidation : Prop :=
  ∀ s t : State, step s = .next t → t.regs.valid = true →
    (s.regs.valid = true ∧ t.regs.humX10 = s.regs.humX10 ∧ t.regs.tempX10 = s.regs.tempX10) ∨
    (s.regs.st = .s9Validate ∧ ∃ h v, decodeWord s.cfg.toParams s.regs.frame = .ok h v ∧
      t.regs.humX10 = BitVec.ofNat 16 h ∧ t.regs.tempX10 = BitVec.ofInt 16 v)

/-- R29, R30, R159: with the document's bounds a valid reading is in range: humidity 0 to 1000, temperature 0 to 800 in the
unsigned reading of the field and −400 to 800 in the sign-magnitude one. The spec marks R159 as its own inference, and the
invariant is the model's form of R39. -/
def Obligations.ValidReadingsAreInRange : Prop :=
  ∀ r : Regs, r.valid = true →
    (RegsInv Config.standard.toParams r →
      r.humX10.toNat ≤ 1000 ∧ 0 ≤ r.tempX10.toInt ∧ r.tempX10.toInt ≤ 800) ∧
    (RegsInv Config.standardSigned.toParams r →
      r.humX10.toNat ≤ 1000 ∧ -400 ≤ r.tempX10.toInt ∧ r.tempX10.toInt ≤ 800)

/-! ## Errors -/

/-- R12, R204: raising E1 to E7 records the code, clears the timer and goes to `S8_RESTORE`; raising E8 or E9 records the code
and ends the attempt; nothing else is written. `NONE` raises nothing (the model's reading of the row, log entry 7). The spec
marks R204 as its own inference. -/
def Obligations.RaisingAnError : Prop :=
  ∀ s : State,
    (∀ k ∈ [ErrName.e1, .e2, .e3, .e4, .e5, .e6, .e7],
      Completes (errInstr k) s { s.regs with err := some k, tmr := 0, st := .s8Restore }) ∧
    (∀ k ∈ [ErrName.e8, .e9], Completes (errInstr k) s { s.regs with err := some k, done := true, st := .idle }) ∧
    Completes .errNone s s.regs

/-- R191: which micro-step raises which error: a wait whose time has elapsed does what its ERR row does, and so does
`S9_VALIDATE` on a frame the decoder rejects. That the rows are instructions is the model's choice (log entry 7). -/
def Obligations.MicrostepsRaiseTheirErrorRows : Prop :=
  ∀ s : State,
    (s.cfg.toRelHigh ≤ s.regs.tmr.toNat → exec .w2RelHigh s = exec .e1 s) ∧
    (s.cfg.toAckLow ≤ s.regs.tmr.toNat → exec .w3AckLow s = exec .e2 s) ∧
    (s.cfg.toAckHigh ≤ s.regs.tmr.toNat → exec .w4AckHigh s = exec .e3 s) ∧
    (s.cfg.toSbLow ≤ s.regs.tmr.toNat → exec .w5SbLow s = exec .e4 s) ∧
    (s.cfg.toSbHigh ≤ s.regs.tmr.toNat → exec .w6SbHigh s = exec .e5 s) ∧
    (s.cfg.toBitLow ≤ s.regs.tmr.toNat → exec .bLo s = exec .e6 s) ∧
    (s.cfg.toBitHigh ≤ s.regs.tmr.toNat → exec .bHi s = exec .e7 s) ∧
    (decodeWord s.cfg.toParams s.regs.frame = .e8 → exec .s9Validate s = exec .e8 s) ∧
    (decodeWord s.cfg.toParams s.regs.frame = .e9 → exec .s9Validate s = exec .e9 s)

/-- R136, R204: the failure exit takes two ticks: in the tick after the timeout the line is driven HIGH again and the code is
on the port, in the next the attempt is over with `done = 1`, `valid = 0` and no reading. The spec marks R204 as its own
inference. -/
def Obligations.FailureExitTakesTwoTicks : Prop :=
  ∀ s : State, s.live = true → RegsInv s.cfg.toParams s.regs → isWait s.regs.st = true →
    waitTimeout s.cfg.toParams s.regs.st ≤ s.regs.tmr.toNat → NoReset s 2 →
    ∃ u v, after 1 s = some u ∧ u.regs.st = .s8Restore ∧ u.regs.out.sdaOe = true ∧ u.regs.out.sdaOut = .high ∧
      u.regs.out.busy = true ∧ u.regs.err = some (waitError s.regs.st) ∧
      after 2 s = some v ∧ v.regs.outcome = some (.err (waitError s.regs.st)) ∧ v.regs.out.busy = false ∧
      v.regs.humX10 = 0 ∧ v.regs.tempX10 = 0

/-- R80, U2: the reserved state codes are refused, by a unit call too, and no step of a block that obeys the invariant fetches
one. The spec marks the unreachability in R80 as its own inference; the refusal is U2's treatment (log entry 4). -/
def Obligations.ReservedCodesAreRefused : Prop :=
  (∀ s : State, exec .reserved13 s = .refused (.reservedState 13) ∧ exec .reserved14 s = .refused (.reservedState 14) ∧
    exec .reserved15 s = .refused (.reservedState 15)) ∧
  (∀ s : State, stNamed s.regs.st = false →
    (∀ a b c, exec (.frame40 a b c) s = .refused (.reservedState (stCode s.regs.st))) ∧
    (∀ a b, exec (.symbol a b) s = .refused (.reservedState (stCode s.regs.st))) ∧
    (∀ n d c, s.session = none → exec (.sample n d c) s = .refused (.reservedState (stCode s.regs.st)))) ∧
  (∀ s : State, s.live = true → StateInv s →
    fetch s ≠ .ok .reserved13 ∧ fetch s ≠ .ok .reserved14 ∧ fetch s ≠ .ok .reserved15)

/-! ## The machine as a whole -/

/-- R139: every step of a block that obeys the invariant is a row of the transition table, whatever unit call is pending. The
spec marks R139 as its own inference. -/
def Obligations.StepsAreRowsOfTheTable : Prop :=
  ∀ s t : State, RegsInv s.cfg.toParams s.regs → s.ports.rst = false → step s = .next t →
    Row s.cfg.toParams s.ports s.regs t.regs

/-- R139: every row of the transition table is a step: whatever the table allows from the registers and inputs, the block does,
whatever unit call is pending, so no row is missing and no two rows disagree. The spec marks R139 as its own inference. -/
def Obligations.RowsOfTheTableAreSteps : Prop :=
  ∀ (s : State) (r : Regs), s.live = true → s.ports.rst = false → Row s.cfg.toParams s.ports s.regs r →
    ∃ t, step s = .next t ∧ t.regs = r ∧ StreamElapsed s t ∧ (s.call = none → HostElapsed s t)

/-- R39, made inductive: the reset state obeys the invariant. The spec marks R39 as its own inference. -/
def Obligations.ResetStateObeysTheInvariant : Prop := StateInv State.reset ∧ State.reset.live = true

/-- R39, made inductive: every step keeps the invariant, from every state that obeys it. The spec marks R39 as its own
inference. -/
def Obligations.StepKeepsTheInvariant : Prop := ∀ s t : State, StateInv s → step s = .next t → StateInv t

/-- R39(h): with the document's constants `tmr` never exceeds 999. The spec marks R39 as its own inference. -/
def Obligations.TimerStaysBelowThousand : Prop :=
  ∀ r : Regs, RegsInv Config.standard.toParams r → r.tmr.toNat ≤ 999

/-- R190: the machine goes on: a block that obeys the invariant answers a next state in every tick after the first reset,
whatever the inputs. That no state stops is read from R190 (log entry 17). -/
def Obligations.EveryTickHasANextState : Prop :=
  ∀ s : State, s.live = true → StateInv s → ∃ t, step s = .next t ∧ t.live = true ∧ t.tick = s.tick + 1

/-- R62: the constants cannot be changed at run time. -/
def Obligations.ConstantsNeverChange : Prop := ∀ s t : State, step s = .next t → t.cfg = s.cfg

/-- R50(b), R133: `frame` is written by an accepting `B_LO` only, and cleared by a command or `rst` only. -/
def Obligations.FrameIsWrittenByBitCaptureOnly : Prop :=
  ∀ s t : State, step s = .next t → t.regs.frame ≠ s.regs.frame →
    (s.regs.st = .bLo ∧ t.regs.st = .bHi ∧ s.ports.smp = Triple.all .low) ∨
    (t.regs.frame = 0 ∧ (s.ports.rst = true ∨ (s.regs.st = .idle ∧ s.ports.start = true)))

/-- R32, R33, R54: the outputs of every state; LOW is driven in `S1_START_LOW` only. -/
def Obligations.LineOutputsPerState : Prop :=
  ∀ r : Regs,
    (r.st ∈ [St.idle, .s0IdleHigh, .s2Release, .s8Restore, .s9Validate] → r.out.sdaOe = true ∧ r.out.sdaOut = .high) ∧
    (r.st = .s1StartLow → r.out.sdaOe = true ∧ r.out.sdaOut = .low) ∧
    (r.st ∈ [St.w2RelHigh, .w3AckLow, .w4AckHigh, .w5SbLow, .w6SbHigh, .bLo, .bHi] →
      r.out.sdaOe = false ∧ r.out.sdaOut = .high) ∧
    (r.out.sdaOe = true ∧ r.out.sdaOut = .low → r.st = .s1StartLow) ∧ (r.out.busy = true ↔ r.st ≠ .idle) ∧
    r.out.done = r.done ∧ r.out.valid = r.valid ∧ r.out.err = errCode r.err ∧ r.out.humX10 = r.humX10 ∧ r.out.tempX10 = r.tempX10

/-- R38: while `done = 1` the ports show exactly one outcome, an `Ok` with `err` 0 and the reading in tenths divided by ten, or
an error 1 to 9 with no reading; while `done = 0` there is none. -/
def Obligations.OutcomeIsReadWhileDone : Prop :=
  ∀ (p : Params) (r : Regs), RegsInv p r →
    (r.done = false → r.outcome = none) ∧
    (r.done = true → r.valid = true → r.outcome = some (.ok r.humX10 r.tempX10) ∧ r.out.err = 0 ∧
      reading r.humX10 r.tempX10 = ((r.humX10.toNat : Rat) / 10, (r.tempX10.toInt : Rat) / 10)) ∧
    (r.done = true → r.valid = false →
      ∃ k, r.outcome = some (.err k) ∧ r.out.err = errCode (some k) ∧ r.out.err.toNat = errNumber k ∧ 1 ≤ errNumber k ∧
        errNumber k ≤ 9 ∧ r.humX10 = 0 ∧ r.tempX10 = 0)

/-- R228: while the block is busy the status reads 0, but for a timeout code in `S8_RESTORE`. The invariant is the model's form
of R39, which the spec marks as its own inference. -/
def Obligations.BusyStatusReadsZero : Prop :=
  ∀ (p : Params) (r : Regs), RegsInv p r → r.out.busy = true →
    r.out.done = false ∧ r.out.valid = false ∧ r.out.humX10 = 0 ∧ r.out.tempX10 = 0 ∧
    (r.out.err ≠ 0 → r.st = .s8Restore ∧ 1 ≤ r.out.err.toNat ∧ r.out.err.toNat ≤ 7)

/-! ## Termination -/

/-- R232: every tick of an attempt brings its end nearer, whatever the environment does. The spec marks R232 as its own
inference; the measure is the model's. -/
def Obligations.EveryBusyTickShortensTheAttempt : Prop :=
  ∀ s t : State, s.live = true → RegsInv s.cfg.toParams s.regs → s.regs.st ≠ .idle → step s = .next t →
    ticksLeft s.cfg.toParams t.regs < ticksLeft s.cfg.toParams s.regs

/-- R232: the bound of an attempt. A command accepted now leads to `done = 1` within the bound, counted in ticks after this
one, if `rst` stays 0, whatever the line does; with the document's constants the bound is 41619 + `T_IDLE_US` cold and 41221 +
`T_IDLE_US` warm. The spec marks R232 as its own inference. -/
def Obligations.EveryAttemptEnds : Prop :=
  (∀ s : State, s.live = true → s.regs.st = .idle → s.ports.start = true →
    NoReset s (attemptBound s.cfg.toParams s.ports.cold + 1) →
    ∃ n u, n ≤ attemptBound s.cfg.toParams s.ports.cold ∧ after (n + 1) s = some u ∧ u.regs.st = .idle ∧ u.regs.done = true ∧
      u.regs.coldQ = s.ports.cold) ∧
  attemptBound Config.standard.toParams true = 41619 + 1 ∧ attemptBound Config.standard.toParams false = 41221 + 1

/-- Program P3 for every configuration, warm or cold: if the released line stays HIGH (no sensor answers), the attempt ends
with E2, `T_IDLE_US + T_START_LOW + 2 + TO_ACK_LOW + 2` ticks after the command's tick (R126, R127, R194). The spec marks its
programs as derived from the rules. -/
def Obligations.NoSensorGivesE2 : Prop :=
  ∀ (s : State) (n : Nat), s.live = true → s.regs.st = .idle → s.ports.start = true →
    n = s.cfg.tIdleUs + s.cfg.tStartLow + 2 + s.cfg.toAckLow + 2 → NoReset s n →
    (∀ k < n, s.cfg.tIdleUs + s.cfg.tStartLow + 2 ≤ k → (s.streamAt k).smp = Triple.all .high) →
    ∃ u, after n s = some u ∧ u.regs.outcome = some (.err .e2)

/-! ## The Retry Sampler -/

/-- R172 to R176: what a `sample` call begins: a cold decode first if asked for, else a warm one, else, when the budget is 0, the
wait for a tick with `busy = 0` in which it returns; `max_attempts` not given is its default. The call comes to the host agent beside
a tick of the block (log entries 5, 8); that a call with nothing to decode waits for `busy = 0` is the model's choice (log entry
23). The spec marks R174 to R176 as its own inferences. -/
def Obligations.SampleBeginsASession : Prop :=
  ∀ (n : Option Nat) (d m : Nat) (s : State), s.session = none → stNamed s.regs.st = true →
    m = n.getD s.cfg.maxAttemptsDefault →
    (∃ u, exec (stInstr s.regs.st) s = .next u ∧ exec (.sample n d true) s =
      .next { u with call := none, session := some { attemptsLeft := m, retryDelay := d, phase := .request true } }) ∧
    (m = 0 → ∃ u, exec (stInstr s.regs.st) s = .next u ∧ exec (.sample n d false) s =
      .next { u with call := none, session := some { attemptsLeft := 0, retryDelay := d, phase := .finish } }) ∧
    (∀ k, m = k + 1 → ∃ u, exec (stInstr s.regs.st) s = .next u ∧ exec (.sample n d false) s =
      .next { u with call := none, session := some { attemptsLeft := k, retryDelay := d, phase := .request false } })

/-- R63, R179: a second `sample` call while one runs is unsupported (refused: log entry 10). The refusal is the
model's choice. -/
def Obligations.SecondSampleIsRefused : Prop :=
  ∀ (n : Option Nat) (d : Nat) (c : Bool) (s : State), s.session ≠ none →
    exec (.sample n d c) s = .refused .sessionRunning

/-- R171 to R173, R175, R176, R179: the host agent's move in each phase, for every `retry_delay`, with the ports it drives. A host that stops
does so between attempts only, and a result due in that tick is still returned. That the agent reacts in the tick in which it
sees an output, how it stops, and that it waits for `busy = 0` with nothing to decode, are the model's choices (log entries 8, 9,
23). -/
def Obligations.HostAgentFollowsTheProtocol : Prop :=
  ∀ (s : State) (left d : Nat) (ph : Phase), s.session = some { attemptsLeft := left, retryDelay := d, phase := ph } →
    let ss : Session := { attemptsLeft := left, retryDelay := d, phase := ph }
    let stop := (s.streamAt 0).stop
    let m := hostMove ss s.regs.out stop
    s.ports.start = m.start ∧ s.ports.cold = m.cold ∧
    (stop = true → s.regs.st ≠ .idle → m = hostMove ss s.regs.out false) ∧
    (stop = true → s.regs.st = .idle → m.start = false ∧ m.next = none ∧
      m.result = (hostMove ss s.regs.out false).result) ∧
    (stop = false →
      (∀ c, ph = .request c → s.regs.st ≠ .idle → m.start = false ∧
        m.next = some { attemptsLeft := left, retryDelay := d, phase := .request c }) ∧
      (∀ c, ph = .request c → s.regs.st = .idle → m.start = true ∧ m.cold = c ∧
        m.next = some { attemptsLeft := left, retryDelay := d, phase := .awaitDone c }) ∧
      (∀ c, ph = .awaitDone c → s.regs.done = false → m.start = false ∧
        m.next = some { attemptsLeft := left, retryDelay := d, phase := .awaitDone c }) ∧
      (ph = .awaitDone false → s.regs.done = true → s.regs.valid = true → m.start = false ∧ m.next = none ∧
        m.result = some (.ok s.regs.humX10 s.regs.tempX10)) ∧
      (ph = .awaitDone false → s.regs.done = true → s.regs.valid = false → left = 0 → m.start = false ∧ m.next = none ∧
        m.result = some .exhausted) ∧
      (ph = .awaitDone true ∨ (ph = .awaitDone false ∧ s.regs.valid = false ∧ 0 < left) → s.regs.done = true →
        (0 < d → m.start = false ∧ m.next = some { attemptsLeft := left, retryDelay := d, phase := .pause (d - 1) }) ∧
        (d = 0 → 0 < left → s.regs.st = .idle → m.start = true ∧ m.cold = false ∧
          m.next = some { attemptsLeft := left - 1, retryDelay := d, phase := .awaitDone false }) ∧
        (d = 0 → 0 < left → s.regs.st ≠ .idle → m.start = false ∧
          m.next = some { attemptsLeft := left - 1, retryDelay := d, phase := .request false }) ∧
        (d = 0 → left = 0 → m.start = false ∧ m.next = none ∧ m.result = some .exhausted)) ∧
      (∀ n, ph = .pause (n + 1) → m.start = false ∧
        m.next = some { attemptsLeft := left, retryDelay := d, phase := .pause n }) ∧
      (ph = .pause 0 → 0 < left → s.regs.st = .idle → m.start = true ∧ m.cold = false ∧
        m.next = some { attemptsLeft := left - 1, retryDelay := d, phase := .awaitDone false }) ∧
      (ph = .pause 0 → 0 < left → s.regs.st ≠ .idle → m.start = false ∧
        m.next = some { attemptsLeft := left - 1, retryDelay := d, phase := .request false }) ∧
      (ph = .pause 0 → left = 0 → m.start = false ∧ m.next = none ∧ m.result = some .exhausted) ∧
      (ph = .finish → s.regs.st ≠ .idle → m.start = false ∧
        m.next = some { attemptsLeft := left, retryDelay := d, phase := .finish }) ∧
      (ph = .finish → s.regs.st = .idle → m.start = false ∧ m.next = none ∧ m.result = some .exhausted))

/-- R173: after a cold attempt, or a failed warm one with an attempt left, the host presents nothing for exactly `retry_delay`
ticks, counted from the first tick with `done = 1`, while the block stays in `IDLE`, keeps its registers and drives the line
HIGH; then the next warm command is presented, or, after a cold attempt with no warm one in the budget, `Exhausted` is returned.
That the command stands on the port exactly `retry_delay` ticks later rests on the host reacting in the tick in which it sees an
output, the model's choice (log entry 8). -/
def Obligations.RetryDelayIsCounted : Prop :=
  ∀ (s : State) (left d : Nat) (c : Bool), s.live = true → StateInv s → s.regs.done = true →
    c = true ∨ (s.regs.valid = false ∧ 0 < left) →
    s.session = some { attemptsLeft := left, retryDelay := d, phase := .awaitDone c } → NoReset s (d + 1) → NoStop s (d + 1) →
    (∀ k < d, ∃ u, after k s = some u ∧ u.regs = s.regs ∧ u.ports.start = false ∧ u.regs.st = .idle ∧
      u.regs.out.sdaOe = true ∧ u.regs.out.sdaOut = .high) ∧
    ∃ u, after d s = some u ∧ u.regs = s.regs ∧
      (0 < left → u.ports.start = true ∧ u.ports.cold = false) ∧
      (left = 0 → u.ports.start = false ∧
        ∃ t, step u = .next t ∧ t.session = none ∧ t.ret = some (.sampled .exhausted) ∧ t.regs = s.regs)

/-- R176, R178: at every return of `sample`, `Ok` or `Exhausted`, and whatever `max_attempts` and `cold_start` were, the line is
driven HIGH by an idle block, and a reading it returns is the one the block has published; a session that the host stops returns
nothing (R179, log entry 9). That every `sample` call begins a
session is `SampleBeginsASession`. The spec marks R176 as its own inference. -/
def Obligations.SampleReturnsThePublishedReading : Prop :=
  ∀ (s t : State) (ss : Session), s.live = true → StateInv s → s.session = some ss → step s = .next t → t.session = none →
    t.regs.st = .idle ∧ t.regs.out.sdaOe = true ∧ t.regs.out.sdaOut = .high ∧
    (t.ret = some (.sampled .exhausted) ∨
      (s.regs.valid = true ∧ t.ret = some (.sampled (.ok s.regs.humX10 s.regs.tempX10))) ∨
      ((s.streamAt 0).stop = true ∧ t.ret = s.ret))

/-- R174: a stub that fails N − 1 times and then succeeds, N within the budget, gives its reading with N warm decodes and N − 1
delays; one that always fails gives `Exhausted` after exactly `max_attempts` decodes and one delay less. The spec marks R174 as
its own inference. -/
def Obligations.SampleCountsAttemptsAndDelays : Prop :=
  ∀ (stub : Nat → DecodeOutcome) (m : Nat),
    (∀ (n : Nat) (h t : Tenths), 1 ≤ n → n ≤ m → (∀ k < n - 1, ∃ e, stub k = .err e) → stub (n - 1) = .ok h t →
      sampleRun stub m false = { result := .ok h t, coldDecodes := 0, warmDecodes := n, delays := n - 1 }) ∧
    ((∀ k < m, ∃ e, stub k = .err e) →
      sampleRun stub m false = { result := .exhausted, coldDecodes := 0, warmDecodes := m, delays := m - 1 })

/-- R172(a), R174: with `cold_start` there is one cold decode whose outcome is discarded, one delay more, and otherwise the run
of the remaining outcomes. The spec marks R174 as its own inference. -/
def Obligations.ColdStartDiscardsTheFirstOutcome : Prop :=
  ∀ (stub : Nat → DecodeOutcome) (m : Nat),
    (sampleRun stub m true).result = (sampleRun (fun k => stub (k + 1)) m false).result ∧
    (sampleRun stub m true).coldDecodes = 1 ∧
    (sampleRun stub m true).warmDecodes = (sampleRun (fun k => stub (k + 1)) m false).warmDecodes ∧
    (sampleRun stub m true).delays = (sampleRun (fun k => stub (k + 1)) m false).delays + 1

/-- R171 to R174, R178: the session that `sample` begins, run tick by tick on the block, is `sampleRun` over the outcomes the
block publishes: within a bound the session ends with `sampleRun`'s result, after as many cold and warm commands and as many
sleeps of `retry_delay` ticks as `sampleRun` counts, the k-th outcome read being the stub's k-th answer. `rst` and the host's
stop stay away. A budget of 0 without a cold decode is included. It rests on the host agent of log entries 8 and 23; the spec
marks R174 as its own inference. -/
def Obligations.SessionRunsAsSampleRun : Prop :=
  ∀ (s : State) (m d : Nat) (c : Bool) (ss : Session), s.live = true → StateInv s → ss = beginSession m d c →
    s.session = some ss → NoReset s (sampleBound s.cfg.toParams m d) → NoStop s (sampleBound s.cfg.toParams m d) →
    ∃ (n : Nat) (stub : Nat → DecodeOutcome) (u : State), n ≤ sampleBound s.cfg.toParams m d ∧ after n s = some u ∧
      u.session = none ∧ u.ret = some (.sampled (sampleRun stub m c).result) ∧
      (∀ k < n, ∃ v, after k s = some v ∧ v.session ≠ none) ∧
      tally n s =
        { cold := (sampleRun stub m c).coldDecodes
          warm := (sampleRun stub m c).warmDecodes
          slept := (sampleRun stub m c).delays * d
          outcomes := (List.range ((sampleRun stub m c).coldDecodes + (sampleRun stub m c).warmDecodes)).map stub }
end

