-- ==== Sys2Proof/Laws/State.lean ====
section
/-! SUPPORT. One lemma per field per update of the state, true by rfl or by one case split. -/

namespace Sys2Proof.Machine

@[simp] theorem finishTick_regs (s : State) (r : Regs) : (finishTick s r).regs = r := rfl
@[simp] theorem finishTick_cfg (s : State) (r : Regs) : (finishTick s r).cfg = s.cfg := rfl
@[simp] theorem finishTick_live (s : State) (r : Regs) : (finishTick s r).live = s.live := rfl
@[simp] theorem finishTick_env (s : State) (r : Regs) : (finishTick s r).env = s.env.tail := rfl
@[simp] theorem finishTick_tick (s : State) (r : Regs) : (finishTick s r).tick = s.tick + 1 := rfl
@[simp] theorem finishTick_call (s : State) (r : Regs) : (finishTick s r).call = s.call := rfl
@[simp] theorem finishTick_ret (s : State) (r : Regs) : (finishTick s r).ret =
    (match s.host.bind HostMove.result with | some x => some (.sampled x) | none => s.ret) := rfl
@[simp] theorem finishTick_session (s : State) (r : Regs) : (finishTick s r).session = s.host.bind HostMove.next := rfl

@[simp] theorem answer_regs (s : State) (x : Ret) : (s.answer x).regs = s.regs := rfl
@[simp] theorem answer_cfg (s : State) (x : Ret) : (s.answer x).cfg = s.cfg := rfl
@[simp] theorem answer_live (s : State) (x : Ret) : (s.answer x).live = s.live := rfl
@[simp] theorem answer_env (s : State) (x : Ret) : (s.answer x).env = s.env := rfl
@[simp] theorem answer_tick (s : State) (x : Ret) : (s.answer x).tick = s.tick := rfl
@[simp] theorem answer_session (s : State) (x : Ret) : (s.answer x).session = s.session := rfl
@[simp] theorem answer_call (s : State) (x : Ret) : (s.answer x).call = none := rfl
@[simp] theorem answer_ret (s : State) (x : Ret) : (s.answer x).ret = some x := rfl
@[simp] theorem startSession_regs (s : State) (x : Session) : (s.startSession x).regs = s.regs := rfl
@[simp] theorem startSession_cfg (s : State) (x : Session) : (s.startSession x).cfg = s.cfg := rfl
@[simp] theorem startSession_live (s : State) (x : Session) : (s.startSession x).live = s.live := rfl
@[simp] theorem startSession_env (s : State) (x : Session) : (s.startSession x).env = s.env := rfl
@[simp] theorem startSession_tick (s : State) (x : Session) : (s.startSession x).tick = s.tick := rfl
@[simp] theorem startSession_session (s : State) (x : Session) : (s.startSession x).session = some x := rfl
@[simp] theorem startSession_call (s : State) (x : Session) : (s.startSession x).call = none := rfl
@[simp] theorem startSession_ret (s : State) (x : Session) : (s.startSession x).ret = s.ret := rfl

@[simp] theorem answerWait_none (s : State) : s.answerWait none = s := rfl
@[simp] theorem answerWait_some (s : State) (x : WaitResult) : s.answerWait (some x) = s.answer (.waited x) := rfl
@[simp] theorem answerWait_regs (s : State) (x : Option WaitResult) : (s.answerWait x).regs = s.regs := by cases x <;> rfl
@[simp] theorem answerWait_cfg (s : State) (x : Option WaitResult) : (s.answerWait x).cfg = s.cfg := by cases x <;> rfl
@[simp] theorem answerWait_live (s : State) (x : Option WaitResult) : (s.answerWait x).live = s.live := by cases x <;> rfl
@[simp] theorem answerWait_env (s : State) (x : Option WaitResult) : (s.answerWait x).env = s.env := by cases x <;> rfl
@[simp] theorem answerWait_tick (s : State) (x : Option WaitResult) : (s.answerWait x).tick = s.tick := by cases x <;> rfl
@[simp] theorem answerWait_session (s : State) (x : Option WaitResult) : (s.answerWait x).session = s.session := by
  cases x <;> rfl

@[simp] theorem resetTick_regs (s : State) : (resetTick s).regs = Regs.reset := rfl
@[simp] theorem resetTick_cfg (s : State) : (resetTick s).cfg = s.cfg := rfl
@[simp] theorem resetTick_live (s : State) : (resetTick s).live = true := rfl
@[simp] theorem resetTick_env (s : State) : (resetTick s).env = s.env.tail := rfl
@[simp] theorem resetTick_tick (s : State) : (resetTick s).tick = s.tick + 1 := rfl
@[simp] theorem resetTick_call (s : State) : (resetTick s).call = none := rfl
@[simp] theorem resetTick_session (s : State) : (resetTick s).session = s.host.bind HostMove.next := rfl

@[simp] theorem chainTo_st (r : Regs) (x : St) : (chainTo r x).st = x := rfl
@[simp] theorem chainTo_tmr (r : Regs) (x : St) : (chainTo r x).tmr = 1 := rfl
@[simp] theorem acceptCommand_st (r : Regs) (c : Bool) : (acceptCommand r c).st = .s0IdleHigh := rfl
@[simp] theorem acceptCommand_coldQ (r : Regs) (c : Bool) : (acceptCommand r c).coldQ = c := rfl
@[simp] theorem captureBit_st (p : Params) (r : Regs) (e : Nat) : (captureBit p r e).st = .bHi := rfl
@[simp] theorem captureBit_bitcnt (p : Params) (r : Regs) (e : Nat) : (captureBit p r e).bitcnt = r.bitcnt := rfl

@[simp] theorem out_done (r : Regs) : r.out.done = r.done := rfl
@[simp] theorem out_valid (r : Regs) : r.out.valid = r.valid := rfl
@[simp] theorem out_humX10 (r : Regs) : r.out.humX10 = r.humX10 := rfl
@[simp] theorem out_tempX10 (r : Regs) : r.out.tempX10 = r.tempX10 := rfl
@[simp] theorem out_busy (r : Regs) : r.out.busy = decide (r.st ≠ .idle) := rfl

end Sys2Proof.Machine
end

