-- ==== Sys2Proof/Laws/Ops.lean ====
section
/-! SUPPORT. One lemma per shared operation that says what it can do; cite these instead of unfolding the operation. -/

namespace Sys2Proof.Machine

/-- Unanimity is the triple of three equal samples (R101). -/
theorem unanimous_iff (t : Triple) (l : Level) : unanimous t l = true ↔ t = { s0 := l, s1 := l, s2 := l } := by
  obtain ⟨a, b, c⟩ := t
  simp [unanimous, and_assoc]

/-- A triple unanimous at one level is not unanimous at the other (R107(b)). -/
theorem unanimous_opposite (t : Triple) (l : Level) (h : unanimous t l = true) : unanimous t l.opposite = false := by
  rw [unanimous_iff] at h
  subst h
  cases l <;> rfl

/-- The legal bounds of the parameters (R234), as arithmetic facts. -/
theorem Config.bounds (c : Config) :
    1 ≤ c.tIdleUs ∧ c.tIdleUs ≤ 1023 ∧ 1 ≤ c.tStartLow ∧ c.tStartLow ≤ 1024 ∧
    (2 ≤ c.toRelHigh ∧ c.toRelHigh ≤ 1023) ∧ (2 ≤ c.toAckLow ∧ c.toAckLow ≤ 1023) ∧
    (2 ≤ c.toAckHigh ∧ c.toAckHigh ≤ 1023) ∧ (2 ≤ c.toSbLow ∧ c.toSbLow ≤ 1023) ∧
    (2 ≤ c.toSbHigh ∧ c.toSbHigh ≤ 1023) ∧ (2 ≤ c.toBitLow ∧ c.toBitLow ≤ 1023) ∧
    (2 ≤ c.toBitHigh ∧ c.toBitHigh ≤ 1023) ∧ 1 ≤ c.thBit ∧ c.thBit < c.toBitLow := by
  have h := c.ok
  simp only [Params.legal, timeoutFits, Bool.and_eq_true, decide_eq_true_eq] at h
  omega

/-- Every wait state's timeout is at least 2 and fits `tmr` (R234). -/
theorem waitTimeout_bounds (c : Config) (w : St) (hw : isWait w = true) :
    2 ≤ waitTimeout c.toParams w ∧ waitTimeout c.toParams w ≤ 1023 := by
  have h := Config.bounds c
  cases w <;> simp_all [isWait, waitTimeout]

/-- What a wait step can do: time out, accept, or count on (R108). -/
theorem waitStep_cases (r : Regs) (smp : Triple) (l : Level) (n : Nat) (k : ErrName) (a : Regs) :
    (n ≤ r.tmr.toNat ∧ waitStep r smp l n k a = raiseError r k) ∨
    (r.tmr.toNat < n ∧ unanimous smp l = true ∧ waitStep r smp l n k a = a) ∨
    (r.tmr.toNat < n ∧ unanimous smp l = false ∧ waitStep r smp l n k a = { r with tmr := r.tmr + 1 }) := by
  unfold waitStep
  by_cases h : n ≤ r.tmr.toNat
  · exact .inl ⟨h, if_pos h⟩
  · rw [if_neg h]
    cases hu : unanimous smp l
    · exact .inr (.inr ⟨by omega, rfl, by simp⟩)
    · exact .inr (.inl ⟨by omega, rfl, by simp⟩)

/-- What a timed step can do: end or count on (R123, R124). -/
theorem timedStep_cases (r : Regs) (n : Nat) (x : St) :
    (r.tmr.toNat = n - 1 ∧ timedStep r n x = { r with tmr := 0, st := x }) ∨
    (r.tmr.toNat ≠ n - 1 ∧ timedStep r n x = { r with tmr := r.tmr + 1 }) := by
  unfold timedStep
  by_cases h : r.tmr.toNat = n - 1
  · exact .inl ⟨h, if_pos h⟩
  · exact .inr ⟨h, if_neg h⟩

/-- Counting on does not wrap below 1023 (R22). -/
theorem tmr_succ (t : Timer) (h : t.toNat < 1023) : (t + 1).toNat = t.toNat + 1 := by
  bv_omega

/-- The command an `IDLE` tick runs (R71, R121, R122). -/
theorem runCommand_eq (r : Regs) (i : Input) :
    runCommand r i = if i.start then acceptCommand r i.cold else r := by
  obtain ⟨a, s, c, m⟩ := i
  cases s <;> cases c <;> rfl

/-- A timeout error records its code, clears the timer and goes to `S8_RESTORE` (R204). -/
theorem raiseError_timeout (r : Regs) (k : ErrName) (h8 : k ≠ .e8) (h9 : k ≠ .e9) :
    raiseError r k = { r with err := some k, tmr := 0, st := .s8Restore } := by
  cases k <;> first | rfl | exact absurd rfl h8 | exact absurd rfl h9

/-- The failure code of a wait state is a timeout code. -/
theorem waitError_timeout (w : St) : waitError w ≠ .e8 ∧ waitError w ≠ .e9 := by
  cases w <;> decide

/-- A state code decodes to its micro-step (R72). -/
theorem decode_stCode (x : St) : decode { fmt := .state, bits := (stCode x).toNat } = .ok (stInstr x) := by
  cases x <;> rfl

/-- Without a unit call that can run, the fetch is the micro-step of `st`. -/
theorem fetch_microstep (s : State) (h : s.callNow = none) : fetch s = .ok (stInstr s.regs.st) := by
  unfold fetch
  rw [h]
  exact decode_stCode _

/-- A unit call runs only with no session, in a named state that it fits. -/
theorem callNow_cases (s : State) (c : Call) (h : s.callNow = some c) :
    s.session = none ∧ stNamed s.regs.st = true ∧ s.call = some c ∧ callFits s.cfg.toParams s.regs.st c = true := by
  unfold State.callNow at h
  split at h
  · rename_i hn
    obtain ⟨h1, h2⟩ := Option.filter_eq_some_iff.mp h
    exact ⟨hn.1, hn.2, h1, h2⟩
  · cases h

/-- Without a pending call the micro-step runs. -/
theorem callNow_none (s : State) (h : s.call = none) : s.callNow = none := by
  simp [State.callNow, h]

/-- In a session the micro-step runs. -/
theorem callNow_session (s : State) (h : s.session ≠ none) : s.callNow = none := by
  simp [State.callNow, h]

/-- A micro-step's meaning is the block's tick of R140. -/
theorem exec_microstep (s : State) (h : stNamed s.regs.st = true) :
    exec (stInstr s.regs.st) s = tickTo s (blockTick s.cfg.toParams s.ports s.regs) := by
  cases hs : s.regs.st <;> rw [hs] at h <;> first
    | (exact absurd h (by decide))
    | (simp [blockTick, hs, isWait, stInstr, acceptAction]; rfl)

/-- What runs beside the block's tick, when that tick has a meaning. -/
theorem besideBlock_named (s : State) (f : State → State) (h : stNamed s.regs.st = true) :
    besideBlock s f = .next (f (finishTick s (blockTick s.cfg.toParams s.ports s.regs))) := if_pos h

/-- In a wait state R140's tick is WAIT with the state's descriptor (R79, R108). -/
theorem blockTick_wait (p : Params) (i : Input) (r : Regs) (h : isWait r.st = true) :
    blockTick p i r =
      waitStep r i.smp (waitTarget r.st) (waitTimeout p r.st) (waitError r.st) (acceptAction p r) := if_pos h

/-- What a `wait_for_level` call answers in one tick (R103, R108): the timeout without a poll, the elapsed time, or nothing. -/
theorem waitAnswer_cases (l : Level) (n e : Nat) (t : Triple) :
    (n ≤ e ∧ waitAnswer l n e t = some .timeout) ∨
    (e < n ∧ unanimous t l = true ∧ waitAnswer l n e t = some (.elapsed e)) ∨
    (e < n ∧ unanimous t l = false ∧ waitAnswer l n e t = none) := by
  unfold waitAnswer
  by_cases h : n ≤ e
  · exact .inl ⟨h, if_pos h⟩
  · rw [if_neg h]
    cases hu : unanimous t l
    · exact .inr (.inr ⟨by omega, rfl, by simp⟩)
    · exact .inr (.inl ⟨by omega, rfl, by simp⟩)

/-- Everything the meaning of `wait_for_level` can do: refuse, or make one tick of the wait (R105, R108, R234). -/
theorem execWaitForLevel_cases (l : Level) (n : Nat) (s : State) :
    (isWait s.regs.st = false ∧ execWaitForLevel l n s = .refused .lineDriven) ∨
    (isWait s.regs.st = true ∧ 1023 < n ∧ execWaitForLevel l n s = .refused .timeoutTooLong) ∨
    (isWait s.regs.st = true ∧ n ≤ 1023 ∧ execWaitForLevel l n s =
      .next ((finishTick s (waitStep s.regs s.ports.smp l n (waitError s.regs.st)
        (acceptAction s.cfg.toParams s.regs))).answerWait (waitAnswer l n s.regs.tmr.toNat s.ports.smp))) := by
  unfold execWaitForLevel timeoutHeld
  cases hw : isWait s.regs.st
  · exact .inl ⟨rfl, rfl⟩
  · by_cases h : n < 2 ^ 10
    · exact .inr (.inr ⟨rfl, by omega, by simp; omega⟩)
    · exact .inr (.inl ⟨rfl, by omega, by simp; omega⟩)

/-- The fetch always decodes. -/
theorem fetch_decodes (s : State) : ∃ i, fetch s = .ok i := by
  cases h : s.callNow with
  | none => exact ⟨_, fetch_microstep s h⟩
  | some c =>
    unfold fetch
    rw [h]
    cases c with
    | frame w =>
      refine ⟨decodeFrame40 (BitVec.ofNat 40 w.toNat), ?_⟩
      simp only [callInstr, decode]
      rw [if_pos (show w.toNat < 1099511627776 from w.isLt)]
    | symbol a b => exact ⟨_, rfl⟩
    | wait a b => exact ⟨_, rfl⟩
    | sample a b c => exact ⟨_, rfl⟩

/-- Everything a step can do when it answers a next state: reset, or run the fetched instruction. -/
theorem step_next_cases (s t : State) (h : step s = .next t) :
    (s.ports.rst = true ∧ t = resetTick s) ∨
    (s.ports.rst = false ∧ s.live = true ∧ ∃ i, fetch s = .ok i ∧ exec i s = .next t) := by
  unfold step at h
  cases hr : s.ports.rst
  · right
    rw [hr] at h
    cases hl : s.live
    · simp [hl] at h
    · obtain ⟨i, hi⟩ := fetch_decodes s
      simp only [Bool.false_eq_true, if_false, hl, if_true, hi] at h
      exact ⟨rfl, rfl, i, hi, h⟩
  · left
    simp only [hr, if_true] at h
    injection h with h
    exact ⟨rfl, h.symm⟩

/-- Without a session the ports are the stream's. -/
theorem ports_no_session (s : State) (h : s.session = none) : s.ports = s.streamAt 0 := by
  simp [State.ports, State.host, h]

/-- `rst` and the samples are the stream's, session or not. -/
theorem ports_stream (s : State) : s.ports.rst = (s.streamAt 0).rst ∧ s.ports.smp = (s.streamAt 0).smp := by
  unfold State.ports
  cases s.host <;> exact ⟨rfl, rfl⟩

/-- In a session `start` and `cold` are the host agent's. -/
theorem ports_session (s : State) (ss : Session) (h : s.session = some ss) :
    s.ports.start = (hostMove ss s.regs.out (s.streamAt 0).stop).start ∧
    s.ports.cold = (hostMove ss s.regs.out (s.streamAt 0).stop).cold := by
  simp [State.ports, State.host, h]

/-- The stream seen one tick later, when a tick has passed. -/
theorem streamAt_tail (s t : State) (n : Nat) (he : t.env = s.env.tail) (ht : t.tick = s.tick + 1) :
    t.streamAt n = s.streamAt (n + 1) := by
  unfold State.streamAt
  rw [he, ht]
  cases s.env with
  | nil => simp [Nat.add_comm, Nat.add_left_comm]
  | cons a l => simp [Nat.add_comm, Nat.add_left_comm]

/-- A tick that ends with the registers `r` leaves everything else as `TickElapsed` says, and the unit call alone. -/
theorem finishTick_elapsed (s : State) (r : Regs) : TickElapsed s (finishTick s r) ∧ CallUntouched s (finishTick s r) := by
  refine ⟨⟨⟨rfl, rfl, rfl, rfl⟩, ?_, ?_⟩, rfl⟩
  · intro h
    simp [finishTick, State.host, h]
  · intro ss h
    cases hr : (hostMove ss s.regs.out (s.streamAt 0).stop).result <;> simp [finishTick, State.host, h, hr]

/-- A meaning that ends its tick with the registers `r` completes with them. -/
theorem completes_of_tickTo (i : Instr) (s : State) (r : Regs) (h : exec i s = tickTo s r) : Completes i s r :=
  ⟨finishTick s r, h, rfl, (finishTick_elapsed s r).1, (finishTick_elapsed s r).2⟩

/-- The range test, bound by bound (R155). -/
theorem inRange_iff (p : Params) (h : Nat) (t : Int) :
    inRange p h t = true ↔ p.humMin ≤ h ∧ (h : Int) ≤ p.humMax ∧ p.tempMin ≤ t ∧ t ≤ p.tempMax := by
  simp [inRange, and_assoc]

/-- What `decode_frame` can answer: E8 on a wrong checksum, else `Ok` in range, else E9 (R158). -/
theorem decodeFrame_cases (p : Params) (b0 b1 b2 b3 b4 : Byte) :
    (b4.toNat ≠ sum8 b0 b1 b2 b3 ∧ decodeFrame p b0 b1 b2 b3 b4 = .e8) ∨
    (b4.toNat = sum8 b0 b1 b2 b3 ∧ inRange p (humRaw b0 b1) (temperatureOf p.signMode (tempRaw b2 b3)) = true ∧
      decodeFrame p b0 b1 b2 b3 b4 = .ok (humRaw b0 b1) (temperatureOf p.signMode (tempRaw b2 b3))) ∨
    (b4.toNat = sum8 b0 b1 b2 b3 ∧ inRange p (humRaw b0 b1) (temperatureOf p.signMode (tempRaw b2 b3)) = false ∧
      decodeFrame p b0 b1 b2 b3 b4 = .e9) := by
  unfold decodeFrame
  by_cases h : b4.toNat ≠ sum8 b0 b1 b2 b3
  · exact .inl ⟨h, if_pos h⟩
  · rw [if_neg h]
    cases hr : inRange p (humRaw b0 b1) (temperatureOf p.signMode (tempRaw b2 b3))
    · exact .inr (.inr ⟨not_not.mp h, rfl, by simp⟩)
    · exact .inr (.inl ⟨not_not.mp h, rfl, by simp⟩)

/-- What a symbol can be read as (R75). -/
theorem symbolResult_cases (p : Params) (high low : Nat) :
    (p.toBitLow ≤ high ∧ symbolResult p high low = .e6) ∨
    (high < p.toBitLow ∧ p.toBitHigh ≤ low ∧ symbolResult p high low = .e7) ∨
    (high < p.toBitLow ∧ low < p.toBitHigh ∧ symbolResult p high low = .bit (decide (p.thBit ≤ high))) := by
  unfold symbolResult bitOfElapsed
  by_cases h : p.toBitLow ≤ high
  · exact .inl ⟨h, if_pos h⟩
  · by_cases hl : p.toBitHigh ≤ low
    · exact .inr (.inl ⟨by omega, hl, by rw [if_neg h, if_pos hl]⟩)
    · exact .inr (.inr ⟨by omega, by omega, by rw [if_neg h, if_neg hl]⟩)

/-- What a count of a bit does: the 40th ends the capture (R134). -/
theorem countBit_cases (r : Regs) :
    (r.bitcnt.toNat + 1 = 40 ∧ countBit r = { r with bitcnt := r.bitcnt + 1, tmr := 0, st := .s8Restore }) ∨
    (r.bitcnt.toNat + 1 ≠ 40 ∧ countBit r = { r with bitcnt := r.bitcnt + 1, tmr := 1, st := .bLo }) := by
  by_cases h : r.bitcnt.toNat + 1 = 40
  · exact .inl ⟨h, if_pos h⟩
  · exact .inr ⟨h, if_neg h⟩

/-- What the host agent can do in one tick: stop between attempts, or what the protocol has it do (R179). -/
theorem hostMove_cases (ss : Session) (o : Output) (stop : Bool) :
    (stop = true ∧ o.busy = false ∧ (hostPlan ss o).next.isSome = true ∧ hostMove ss o stop = hostStop) ∨
    hostMove ss o stop = hostPlan ss o := by
  unfold hostMove
  split
  · rename_i h
    simp only [Bool.and_eq_true, Bool.not_eq_true'] at h
    exact .inl ⟨h.1.1, h.1.2, h.2, rfl⟩
  · exact .inr rfl

/-- A host that does not stop follows the protocol. -/
theorem hostMove_plan (ss : Session) (o : Output) : hostMove ss o false = hostPlan ss o := rfl

/-- What a request can do in one tick (R171(1), (2)). -/
theorem hostRequest_cases (ss : Session) (c : Bool) (o : Output) :
    (o.busy = true ∧ hostRequest ss c o = hostHold ss (.request c)) ∨
    (o.busy = false ∧ (hostRequest ss c o).start = true ∧ (hostRequest ss c o).cold = c ∧
      (hostRequest ss c o).next = some { ss with phase := .awaitDone c } ∧ (hostRequest ss c o).result = none) := by
  unfold hostRequest
  cases o.busy <;> simp

/-- What the host can do when its delay is over (R172(b), (c)): return, or begin the next warm decode. -/
theorem hostNextWarm_cases (ss : Session) (o : Output) :
    (ss.attemptsLeft = 0 ∧ hostNextWarm ss o = hostReturn .exhausted) ∨
    ∃ n, ss.attemptsLeft = n + 1 ∧ hostNextWarm ss o = hostRequest { ss with attemptsLeft := n } false o := by
  unfold hostNextWarm
  cases h : ss.attemptsLeft with
  | zero => exact .inl ⟨rfl, rfl⟩
  | succ n => exact .inr ⟨n, rfl, rfl⟩

/-- What the host can do with nothing to decode: wait for `busy = 0`, or return (R175, R176). -/
theorem hostFinish_cases (ss : Session) (o : Output) :
    (o.busy = true ∧ hostFinish ss o = hostHold ss .finish) ∨ (o.busy = false ∧ hostFinish ss o = hostReturn .exhausted) := by
  unfold hostFinish
  cases o.busy <;> simp

/-- What a session can begin with (R172, R175). -/
theorem beginSession_cases (m d : Nat) (c : Bool) :
    (c = true ∧ beginSession m d c = { attemptsLeft := m, retryDelay := d, phase := .request true }) ∨
    (c = false ∧ m = 0 ∧ beginSession m d c = { attemptsLeft := 0, retryDelay := d, phase := .finish }) ∨
    ∃ n, c = false ∧ m = n + 1 ∧ beginSession m d c = { attemptsLeft := n, retryDelay := d, phase := .request false } := by
  cases c
  · cases m with
    | zero => exact .inr (.inl ⟨rfl, rfl, rfl⟩)
    | succ n => exact .inr (.inr ⟨n, rfl, rfl, rfl⟩)
  · exact .inl ⟨rfl, rfl⟩

end Sys2Proof.Machine
end

