-- ==== Sys2Proof/Laws/PerInstr.lean ====
section
/-! SUPPORT. Per-instruction families: an encoded word fits its format's width (30_encoding.md R81). -/

namespace Sys2Proof.Laws

/-- The word of an instruction, if it has one, has a format of fixed width and fits it (R70, R81). -/
def EncodedWidth.Statement (i : Instr) : Prop :=
  ∀ w, encode i = some w → ∃ n, w.fmt.width = some n ∧ w.bits < 2 ^ n

/-- A word of a width that fits. -/
theorem encodedWidth_of {i : Instr} {f : Format} {b n : Nat} (he : encode i = some { fmt := f, bits := b })
    (hn : f.width = some n) (hb : b < 2 ^ n) : EncodedWidth.Statement i := by
  intro w hw
  rw [he] at hw
  cases hw
  exact ⟨n, hn, hb⟩

/-- An instruction without a word. -/
theorem encodedWidth_none {i : Instr} (he : encode i = none) : EncodedWidth.Statement i := by
  intro w hw
  rw [he] at hw
  cases hw

theorem EncodedWidth.nop (cold : Bool) : EncodedWidth.Statement (.nop cold) := by
  cases cold <;> exact encodedWidth_of rfl rfl (by decide)
theorem EncodedWidth.readWarm : EncodedWidth.Statement .readWarm := encodedWidth_of rfl rfl (by decide)
theorem EncodedWidth.readCold : EncodedWidth.Statement .readCold := encodedWidth_of rfl rfl (by decide)
theorem EncodedWidth.idle : EncodedWidth.Statement .idle := encodedWidth_of rfl rfl (by decide)
theorem EncodedWidth.s0IdleHigh : EncodedWidth.Statement .s0IdleHigh := encodedWidth_of rfl rfl (by decide)
theorem EncodedWidth.s1StartLow : EncodedWidth.Statement .s1StartLow := encodedWidth_of rfl rfl (by decide)
theorem EncodedWidth.s2Release : EncodedWidth.Statement .s2Release := encodedWidth_of rfl rfl (by decide)
theorem EncodedWidth.w2RelHigh : EncodedWidth.Statement .w2RelHigh := encodedWidth_of rfl rfl (by decide)
theorem EncodedWidth.w3AckLow : EncodedWidth.Statement .w3AckLow := encodedWidth_of rfl rfl (by decide)
theorem EncodedWidth.w4AckHigh : EncodedWidth.Statement .w4AckHigh := encodedWidth_of rfl rfl (by decide)
theorem EncodedWidth.w5SbLow : EncodedWidth.Statement .w5SbLow := encodedWidth_of rfl rfl (by decide)
theorem EncodedWidth.w6SbHigh : EncodedWidth.Statement .w6SbHigh := encodedWidth_of rfl rfl (by decide)
theorem EncodedWidth.bLo : EncodedWidth.Statement .bLo := encodedWidth_of rfl rfl (by decide)
theorem EncodedWidth.bHi : EncodedWidth.Statement .bHi := encodedWidth_of rfl rfl (by decide)
theorem EncodedWidth.s8Restore : EncodedWidth.Statement .s8Restore := encodedWidth_of rfl rfl (by decide)
theorem EncodedWidth.s9Validate : EncodedWidth.Statement .s9Validate := encodedWidth_of rfl rfl (by decide)
theorem EncodedWidth.reserved13 : EncodedWidth.Statement .reserved13 := encodedWidth_of rfl rfl (by decide)
theorem EncodedWidth.reserved14 : EncodedWidth.Statement .reserved14 := encodedWidth_of rfl rfl (by decide)
theorem EncodedWidth.reserved15 : EncodedWidth.Statement .reserved15 := encodedWidth_of rfl rfl (by decide)
theorem EncodedWidth.errNone : EncodedWidth.Statement .errNone := encodedWidth_of rfl rfl (by decide)
theorem EncodedWidth.e1 : EncodedWidth.Statement .e1 := encodedWidth_of rfl rfl (by decide)
theorem EncodedWidth.e2 : EncodedWidth.Statement .e2 := encodedWidth_of rfl rfl (by decide)
theorem EncodedWidth.e3 : EncodedWidth.Statement .e3 := encodedWidth_of rfl rfl (by decide)
theorem EncodedWidth.e4 : EncodedWidth.Statement .e4 := encodedWidth_of rfl rfl (by decide)
theorem EncodedWidth.e5 : EncodedWidth.Statement .e5 := encodedWidth_of rfl rfl (by decide)
theorem EncodedWidth.e6 : EncodedWidth.Statement .e6 := encodedWidth_of rfl rfl (by decide)
theorem EncodedWidth.e7 : EncodedWidth.Statement .e7 := encodedWidth_of rfl rfl (by decide)
theorem EncodedWidth.e8 : EncodedWidth.Statement .e8 := encodedWidth_of rfl rfl (by decide)
theorem EncodedWidth.e9 : EncodedWidth.Statement .e9 := encodedWidth_of rfl rfl (by decide)
theorem EncodedWidth.frame40 (hum temp : BitVec 16) (cksum : BitVec 8) :
    EncodedWidth.Statement (.frame40 hum temp cksum) :=
  encodedWidth_of (n := 40) rfl rfl (hum ++ temp ++ cksum : BitVec 40).isLt
theorem EncodedWidth.symbol (high low : Nat) : EncodedWidth.Statement (.symbol high low) := encodedWidth_none rfl
theorem EncodedWidth.waitForLevel (target : Level) (timeout : Nat) :
    EncodedWidth.Statement (.waitForLevel target timeout) := encodedWidth_none rfl
theorem EncodedWidth.sample (n : Option Nat) (d : Nat) (c : Bool) :
    EncodedWidth.Statement (.sample n d c) := encodedWidth_none rfl

end Sys2Proof.Laws
end

