-- ==== Sys2Proof/Machine/Scenario.lean ====
section
/-! DEFINITION. The scenario notation of 30_encoding.md R83 as input streams. -/

namespace Sys2Proof.Machine

/-- `WAVE`: the level at a position of a list of runs (level, length); the last run is extended for ever. An empty wave is
HIGH. -/
def waveLevel : List (Level × Nat) → Nat → Level
  | [], _ => .high
  | [run], _ => run.1
  | run :: rest, n => if n < run.2 then run.1 else waveLevel rest (n - run.2)

/-- `TRIPLE @p (a,b,c)` lines over a wave: the triple at a position. -/
def waveTriple (wave : List (Level × Nat)) (odd : List (Nat × Triple)) (n : Nat) : Triple :=
  match odd.find? (fun x => x.1 == n) with
  | some x => x.2
  | none => Triple.all (waveLevel wave n)

/-- `RESET`: one tick with `rst = 1`. -/
def scenarioReset : List Input := [{ rst := true, start := false, cold := false, smp := Triple.all .high }]

/-- `NOP n`. -/
def scenarioNop (n : Nat) : List Input := List.replicate n quietInput

/-- `READ_WARM` / `READ_COLD` with a `WAVE`, the tick of the command and `n` ticks after it: position 0 of the wave is tick
`T_IDLE_US + 1002` of the attempt (for `T_START_LOW` = 1000), before it the line shows HIGH and is not read. -/
def scenarioRead (p : Params) (cold : Bool) (wave : List (Level × Nat)) (odd : List (Nat × Triple)) (n : Nat) : List Input :=
  { rst := false, start := true, cold := cold, smp := Triple.all .high } ::
    (List.range n).map fun k =>
      { rst := false
        start := false
        cold := false
        smp := if k + 1 < p.tIdleUs + p.tStartLow + 2 then Triple.all .high
               else waveTriple wave odd (k + 1 - (p.tIdleUs + p.tStartLow + 2)) }

end Sys2Proof.Machine
end

