-- ==== Sys2Proof/Tests/Slice0.lean ====
section
/-! SUPPORT. Tests: the smoke test of WellFormed, words written out from the encoding tables of 30_encoding.md, small one-step
tests whose expected results are those of 95_test_vectors.md or of the rule named, and for every statement with hypotheses a
witness that meets them. -/

namespace Sys2Proof.Tests

open Sys2Proof.Machine

/-! ## Helpers -/

/-- An input tick that only shows a triple. -/
def shows (t : Triple) : Input := { rst := false, start := false, cold := false, smp := t }

/-- An input tick with a command. -/
def command (cold : Bool) : Input := { rst := false, start := true, cold := cold, smp := Triple.all .high }

/-- An input tick with `rst = 1`. -/
def resetInput : Input := { rst := true, start := true, cold := true, smp := Triple.all .low }

/-- Registers of an attempt in a state with a timer. -/
def regsAt (st : St) (tmr : Timer) : Regs := { Regs.reset with st := st, tmr := tmr }

/-- A state with given registers and inputs. -/
def stateAt (r : Regs) (env : List Input) : State := { State.reset with regs := r, env := env }

/-- The registers after an outcome. -/
def regsOf : Host.Outcome State Fault Refusal → Option Regs
  | .next t => some t.regs
  | .fault _ => none
  | .refused _ => none

/-- What a unit call handed back. -/
def retOf : Host.Outcome State Fault Refusal → Option Ret
  | .next t => t.ret
  | .fault _ => none
  | .refused _ => none

/-- The session after an outcome. -/
def sessionOf : Host.Outcome State Fault Refusal → Option Session
  | .next t => t.session
  | .fault _ => none
  | .refused _ => none

/-- Why an outcome is a refusal. -/
def refusalOf : Host.Outcome State Fault Refusal → Option Refusal
  | .next _ => none
  | .fault _ => none
  | .refused r => some r

/-- The registers of an attempt that failed with E2 (95_test_vectors.md P3). -/
def failedRegs : Regs := { Regs.reset with err := some .e2, done := true }

/-- The registers at the end of program P1 (95_test_vectors.md). -/
def goodRegs : Regs :=
  { st := .idle, tmr := 0, bitcnt := 40, frame := 0x01900110A2, coldQ := true, err := none, done := true, valid := true,
    humX10 := 400, tempX10 := 272 }

/-! ## WellFormed -/

theorem test_wf_reserved13 : Instr.wf .reserved13 = false := by decide
theorem test_wf_reserved14 : Instr.wf .reserved14 = false := by decide
theorem test_wf_reserved15 : Instr.wf .reserved15 = false := by decide
theorem test_wf_symbol_no_high : Instr.wf (.symbol 0 1) = false := by decide
theorem test_wf_symbol_no_low : Instr.wf (.symbol 1 0) = false := by decide
theorem test_wf_timeout : Instr.wf (.waitForLevel .low 1024) = false := by decide
theorem test_wf_accepts :
    Instr.wf (.symbol 1 1) = true ∧ Instr.wf (.nop true) = true ∧ Instr.wf .s9Validate = true ∧
    Instr.wf (.waitForLevel .low 1023) = true := by decide

/-! ## Words written out from the tables (R71, R72, R73, R77) -/

theorem test_decode_cmd :
    decode { fmt := .cmd, bits := 0b00 } = .ok (.nop false) ∧ decode { fmt := .cmd, bits := 0b01 } = .ok (.nop true) ∧
    decode { fmt := .cmd, bits := 0b10 } = .ok .readWarm ∧ decode { fmt := .cmd, bits := 0b11 } = .ok .readCold ∧
    decode { fmt := .cmd, bits := 0b100 } = .reject .tooWide := by decide

theorem test_decode_state_low :
    decode { fmt := .state, bits := 0b0000 } = .ok .idle ∧ decode { fmt := .state, bits := 0b0001 } = .ok .s0IdleHigh ∧
    decode { fmt := .state, bits := 0b0010 } = .ok .s1StartLow ∧ decode { fmt := .state, bits := 0b0011 } = .ok .s2Release ∧
    decode { fmt := .state, bits := 0b0100 } = .ok .w2RelHigh ∧ decode { fmt := .state, bits := 0b0101 } = .ok .w3AckLow ∧
    decode { fmt := .state, bits := 0b0110 } = .ok .w4AckHigh ∧ decode { fmt := .state, bits := 0b0111 } = .ok .w5SbLow := by
  decide

theorem test_decode_state_high :
    decode { fmt := .state, bits := 0b1000 } = .ok .w6SbHigh ∧ decode { fmt := .state, bits := 0b1001 } = .ok .bLo ∧
    decode { fmt := .state, bits := 0b1010 } = .ok .bHi ∧ decode { fmt := .state, bits := 0b1011 } = .ok .s8Restore ∧
    decode { fmt := .state, bits := 0b1100 } = .ok .s9Validate ∧ decode { fmt := .state, bits := 0b1101 } = .ok .reserved13 ∧
    decode { fmt := .state, bits := 0b1110 } = .ok .reserved14 ∧ decode { fmt := .state, bits := 0b1111 } = .ok .reserved15 ∧
    decode { fmt := .state, bits := 0b10000 } = .reject .tooWide := by decide

theorem test_decode_err :
    decode { fmt := .err, bits := 0b0000 } = .ok .errNone ∧ decode { fmt := .err, bits := 0b0001 } = .ok .e1 ∧
    decode { fmt := .err, bits := 0b0010 } = .ok .e2 ∧ decode { fmt := .err, bits := 0b0011 } = .ok .e3 ∧
    decode { fmt := .err, bits := 0b0100 } = .ok .e4 ∧ decode { fmt := .err, bits := 0b0101 } = .ok .e5 ∧
    decode { fmt := .err, bits := 0b0110 } = .ok .e6 ∧ decode { fmt := .err, bits := 0b0111 } = .ok .e7 ∧
    decode { fmt := .err, bits := 0b1000 } = .ok .e8 ∧ decode { fmt := .err, bits := 0b1001 } = .ok .e9 ∧
    decode { fmt := .err, bits := 0b1010 } = .reject .errCodeUnused ∧
    decode { fmt := .err, bits := 0b10000 } = .reject .tooWide := by decide

/-- Frame A of 95_test_vectors.md: bytes 01 90 01 10 A2. -/
theorem test_decode_frame40 :
    decode { fmt := .frame40, bits := 0b0000000110010000000000010001000010100010 } = .ok (.frame40 0x0190 0x0110 0xA2) := by
  decide

theorem test_decode_no_words :
    decode { fmt := .symbol, bits := 0 } = .reject .notEncoded ∧ decode { fmt := .operation, bits := 0 } = .reject .notEncoded ∧
    decode { fmt := .macroForm, bits := 0 } = .reject .notEncoded := by decide

/-- Bare words of the opcode table (log entry 3). -/
theorem test_table_words :
    decodeTableWord 8 12 = some .s9Validate ∧ decodeTableWord 2 3 = some .readCold ∧
    decodeTableWord 40 0x01900110A2 = some (.frame40 0x0190 0x0110 0xA2) ∧ decodeTableWord 16 0 = none := by decide

/-! ## Reset and commands -/

/-- V2.2-6: reset wins over a command. -/
theorem test_reset_wins : regsOf (step (stateAt (regsAt .bLo 7) [resetInput])) = some Regs.reset := by decide

/-- R223: no step before the first reset. -/
theorem test_before_reset :
    refusalOf (step { stateAt Regs.reset [command false] with live := false }) = some .beforeFirstReset := by decide

/-- V2.2-1, R122: `NOP` keeps the last outcome. -/
theorem test_nop : regsOf (exec (.nop true) (stateAt goodRegs [shows (Triple.all .low)])) = some goodRegs := by decide

/-- V2.2-2: tick 1 of a warm read. -/
theorem test_read_warm : regsOf (exec .readWarm (stateAt goodRegs [])) = some (regsAt .s0IdleHigh 0) := by decide

/-- R121's example: tick 1 of a cold read. -/
theorem test_read_cold :
    regsOf (exec .readCold (stateAt failedRegs [])) = some { regsAt .s0IdleHigh 0 with coldQ := true } := by decide

/-- V2.2-3: a command to a busy block is ignored. -/
theorem test_read_busy : regsOf (exec .readCold (stateAt (regsAt .s1StartLow 498) [])) = some (regsAt .s1StartLow 498) := by
  decide

/-- V2.2-2 through the ports. -/
theorem test_idle_start :
    regsOf (step (stateAt goodRegs [command true])) = some { regsAt .s0IdleHigh 0 with coldQ := true } := by decide

/-- V2.2-3 through the ports: tick 500 to 501. -/
theorem test_busy_start : regsOf (step (stateAt (regsAt .s1StartLow 498) [command true])) = some (regsAt .s1StartLow 499) := by
  decide

/-- V2.2-1: outputs of the reset state. -/
theorem test_reset_out :
    Regs.reset.out = { sdaOe := true, sdaOut := .high, busy := false, done := false, valid := false, err := 0, humX10 := 0,
                       tempX10 := 0 } := by decide

/-! ## The micro-steps, with the ticks of program P1 -/

/-- Tick 1. -/
theorem test_s0 : regsOf (step (stateAt (regsAt .s0IdleHigh 0) [shows (Triple.all .low)])) = some (regsAt .s1StartLow 0) := by
  decide

/-- Tick 1000 of 2 to 1001. -/
theorem test_s1_stay : regsOf (step (stateAt (regsAt .s1StartLow 998) [quietInput])) = some (regsAt .s1StartLow 999) := by decide

/-- Tick 1001. -/
theorem test_s1_end : regsOf (step (stateAt (regsAt .s1StartLow 999) [quietInput])) = some (regsAt .s2Release 0) := by decide

/-- Tick 1002. -/
theorem test_s2 : regsOf (step (stateAt (regsAt .s2Release 0) [quietInput])) = some (regsAt .w2RelHigh 0) := by decide

/-- Tick 1003, e = 0. -/
theorem test_w2_accept : regsOf (step (stateAt (regsAt .w2RelHigh 0) [quietInput])) = some (regsAt .w3AckLow 1) := by decide

/-- P4: tick 1103 finds the timeout, and the line, now HIGH, is not looked at (R203(b)). -/
theorem test_w2_timeout :
    regsOf (step (stateAt (regsAt .w2RelHigh 100) [quietInput])) = some { regsAt .s8Restore 0 with err := some .e1 } := by decide

/-- V2.2-13: e = 99, the last poll. -/
theorem test_w3_accept :
    regsOf (step (stateAt (regsAt .w3AckLow 99) [shows (Triple.all .low)])) = some (regsAt .w4AckHigh 1) := by decide

/-- P15: position 30, the triple (0,1,0), tmr 30 to 31. -/
theorem test_w3_mixed :
    regsOf (step (stateAt (regsAt .w3AckLow 30) [shows { s0 := .low, s1 := .high, s2 := .low }])) =
      some (regsAt .w3AckLow 31) := by decide

/-- P1, tick 1113: a cold attempt goes on to the start bit. -/
theorem test_w4_cold :
    regsOf (step (stateAt { regsAt .w4AckHigh 80 with coldQ := true } [quietInput])) =
      some { regsAt .w5SbLow 1 with coldQ := true } := by decide

/-- P2, tick 1113: a warm attempt goes on to the payload. -/
theorem test_w4_warm : regsOf (step (stateAt (regsAt .w4AckHigh 80) [quietInput])) = some (regsAt .bLo 1) := by decide

/-- P1, tick 1193. -/
theorem test_w5_accept :
    regsOf (step (stateAt { regsAt .w5SbLow 80 with coldQ := true } [shows (Triple.all .low)])) =
      some { regsAt .w6SbHigh 1 with coldQ := true } := by decide

/-- P11, tick 1313. -/
theorem test_w5_timeout :
    regsOf (step (stateAt { regsAt .w5SbLow 200 with coldQ := true } [quietInput])) =
      some { regsAt .s8Restore 0 with coldQ := true, err := some .e4 } := by decide

/-- P1, tick 1243. -/
theorem test_w6_accept :
    regsOf (step (stateAt { regsAt .w6SbHigh 50 with coldQ := true } [quietInput])) =
      some { regsAt .bLo 1 with coldQ := true } := by decide

/-- P12, tick 1393. -/
theorem test_w6_timeout :
    regsOf (step (stateAt { regsAt .w6SbHigh 200 with coldQ := true } [shows (Triple.all .low)])) =
      some { regsAt .s8Restore 0 with coldQ := true, err := some .e5 } := by decide

/-- X5: 49 is a 0, shifted in at the right. -/
theorem test_b_lo_49 :
    regsOf (step (stateAt { regsAt .bLo 49 with frame := 3 } [shows (Triple.all .low)])) =
      some { regsAt .bHi 1 with frame := 6 } := by decide

/-- X5: 50 is a 1. -/
theorem test_b_lo_50 :
    regsOf (step (stateAt { regsAt .bLo 50 with frame := 0x8000000001 } [shows (Triple.all .low)])) =
      some { regsAt .bHi 1 with frame := 3 } := by decide

/-- P1, tick 4635: the 40th bit. -/
theorem test_b_hi_last :
    regsOf (step (stateAt { regsAt .bHi 50 with bitcnt := 39 } [quietInput])) =
      some { regsAt .s8Restore 0 with bitcnt := 40 } := by decide

/-- R134's example: `bitcnt` 0 to 1. -/
theorem test_b_hi : regsOf (step (stateAt (regsAt .bHi 50) [quietInput])) = some { regsAt .bLo 1 with bitcnt := 1 } := by decide

/-- P3, tick 1104. -/
theorem test_s8_failed :
    regsOf (step (stateAt { regsAt .s8Restore 0 with err := some .e2 } [quietInput])) = some failedRegs := by decide

/-- P1, tick 4636. -/
theorem test_s8_good :
    regsOf (step (stateAt { regsAt .s8Restore 0 with bitcnt := 40 } [quietInput])) =
      some { regsAt .s9Validate 0 with bitcnt := 40 } := by decide

/-- P1, tick 4637. -/
theorem test_s9_good :
    regsOf (step (stateAt { regsAt .s9Validate 0 with bitcnt := 40, frame := 0x01900110A2, coldQ := true } [quietInput])) =
      some goodRegs := by decide

/-- P6 in the sign-magnitude reading: −101 tenths is 0xFF9B. -/
theorem test_s9_signed :
    regsOf (step { stateAt { regsAt .s9Validate 0 with bitcnt := 40, frame := 0x0190806576 } [quietInput] with
      cfg := Config.standardSigned }) =
      some { regsAt .idle 0 with bitcnt := 40, frame := 0x0190806576, done := true, valid := true, humX10 := 400,
                                 tempX10 := 0xFF9B } := by decide

/-- R80. -/
theorem test_reserved :
    refusalOf (exec .reserved13 State.reset) = some (.reservedState 13) ∧
    refusalOf (exec .reserved14 State.reset) = some (.reservedState 14) ∧
    refusalOf (exec .reserved15 State.reset) = some (.reservedState 15) := by decide

/-! ## The errors -/

/-- P3, tick 1103: what raising E2 does. -/
theorem test_e2 :
    regsOf (exec .e2 (stateAt (regsAt .w3AckLow 100) [])) = some { regsAt .s8Restore 0 with err := some .e2 } := by decide

/-- P2, tick 4463: what raising E8 does. -/
theorem test_e8 :
    regsOf (exec .e8 (stateAt { regsAt .s9Validate 0 with bitcnt := 40, frame := 0x0276010000 } [])) =
      some { regsAt .idle 0 with bitcnt := 40, frame := 0x0276010000, err := some .e8, done := true } := by decide

/-- The timeout codes go to `S8_RESTORE`, the validation codes to `IDLE` (R12). -/
theorem test_raise_states :
    [ErrName.e1, .e3, .e4, .e5, .e6, .e7, .e9].map (fun k => (raiseError (regsAt .bHi 9) k).st) =
      [.s8Restore, .s8Restore, .s8Restore, .s8Restore, .s8Restore, .s8Restore, .idle] := by decide

/-- R73: no error raises nothing. -/
theorem test_none : regsOf (exec .errNone (stateAt (regsAt .bLo 3) [])) = some (regsAt .bLo 3) := by decide

/-! ## The unit calls -/

/-- V2.3-6: both upper bounds inclusive, the sum wraps. -/
theorem test_frame_bounds : retOf (exec (.frame40 0x03E8 0x0320 0x0E) State.reset) = some (.decoded (.ok 1000 800)) := by decide

/-- V2.3-10: checksum first; V2.3-7: one over; V2.3-14: all ones. -/
theorem test_frame_errors :
    retOf (exec (.frame40 0x03E9 0x0321 0x00) State.reset) = some (.decoded .e8) ∧
    retOf (exec (.frame40 0x03E8 0x0321 0x0F) State.reset) = some (.decoded .e9) ∧
    retOf (exec (.frame40 0xFFFF 0xFFFF 0xFF) State.reset) = some (.decoded .e8) := by decide

/-- V2.3-18, V2.3-19, V2.3-20 in the sign-magnitude reading. -/
theorem test_frame_signed :
    decodeWord Config.standardSigned.toParams 0x01908190A2 = .ok 400 (-400) ∧
    decodeWord Config.standardSigned.toParams 0x01908191A3 = .e9 ∧
    decodeWord Config.standardSigned.toParams 0x0000800080 = .ok 0 0 := by decide

/-- X7's reading: 40.0 % and 27.2 °C. -/
theorem test_reading : reading 400 272 = (40, 272 / 10) ∧ reading 0 0xFF9B = (0, -101 / 10) := by
  have h1 : (272 : Tenths).toInt = 272 := by decide
  have h2 : (0xFF9B : Tenths).toInt = -101 := by decide
  have h3 : (400 : Tenths).toNat = 400 := by decide
  unfold reading
  rw [h1, h2, h3]
  norm_num

/-- X5 as symbols. -/
theorem test_symbol :
    retOf (exec (.symbol 49 50) State.reset) = some (.symbol (.bit false)) ∧
    retOf (exec (.symbol 50 50) State.reset) = some (.symbol (.bit true)) := by decide

/-- V2.2-15 and V2.2-16 as symbols: 499 is the last length, 500 is too long; a LOW phase of 500 gives E7 (R134). -/
theorem test_symbol_timeouts :
    retOf (exec (.symbol 499 499) State.reset) = some (.symbol (.bit true)) ∧
    retOf (exec (.symbol 500 1) State.reset) = some (.symbol .e6) ∧
    retOf (exec (.symbol 1 500) State.reset) = some (.symbol .e7) := by decide

/-- V2.1-3: two of three is not enough. -/
theorem test_wait_noise :
    waitForLevel .high 100 (fun e => if e < 5 then Triple.all .low
      else if e = 5 then { s0 := .high, s1 := .high, s2 := .low } else Triple.all .high) = .elapsed 6 := by decide

/-- V2.1-5 and V2.1-6 as the call of `W3_ACK_LOW`, one tick each: the last poll and the timeout. -/
theorem test_wait_call :
    retOf (exec (.waitForLevel .low 100) (stateAt (regsAt .w3AckLow 99) [shows (Triple.all .low)])) =
      some (.waited (.elapsed 99)) ∧
    retOf (exec (.waitForLevel .low 100) (stateAt (regsAt .w3AckLow 100) [shows (Triple.all .low)])) =
      some (.waited .timeout) := by decide

/-- R105: not where the line is driven; R234: not with a timeout that `tmr` cannot reach. -/
theorem test_wait_refused :
    refusalOf (exec (.waitForLevel .high 100) State.reset) = some .lineDriven ∧
    refusalOf (exec (.waitForLevel .low 1024) (stateAt (regsAt .w3AckLow 99) [])) = some .timeoutTooLong := by decide

/-- V2.4-2: F F S. -/
theorem test_sample_run :
    sampleRun (fun k => if k < 2 then .err .e2 else .ok 400 272) 10 false =
      { result := .ok 400 272, coldDecodes := 0, warmDecodes := 3, delays := 2 } := by decide

/-- V2.4-8: S S′ with a cold start; V2.4-9: F F F. -/
theorem test_sample_cold :
    sampleRun (fun k => if k = 0 then .ok 400 272 else .ok 630 256) 10 true =
      { result := .ok 630 256, coldDecodes := 1, warmDecodes := 1, delays := 1 } ∧
    sampleRun (fun _ => .err .e2) 2 true = { result := .exhausted, coldDecodes := 1, warmDecodes := 2, delays := 2 } := by decide

/-- R175: the default budget of ten, the first of them begun. -/
theorem test_sample_default :
    sessionOf (exec (.sample none 5 false) State.reset) =
      some { attemptsLeft := 9, retryDelay := 5, phase := .request false } := by decide

/-- V2.4-7: a budget of 0 returns `Exhausted`; R176: not while the line is driven LOW. -/
theorem test_sample_zero :
    let f (r : Regs) : State := { stateAt r [command true] with session := some (beginSession 0 5 false) }
    sessionOf (exec (.sample (some 0) 5 false) State.reset) = some { attemptsLeft := 0, retryDelay := 5, phase := .finish } ∧
    retOf (step (f goodRegs)) = some (.sampled .exhausted) ∧ regsOf (step (f goodRegs)) = some goodRegs ∧
    retOf (step (f (regsAt .s1StartLow 5))) = none ∧ sessionOf (step (f (regsAt .s1StartLow 5))) = some (beginSession 0 5 false) := by
  decide

/-- U16: a host that stops between two attempts ends its session without a result. -/
theorem test_sample_stop :
    let s : State :=
      { stateAt failedRegs [{ quietInput with stop := true }] with
        session := some { attemptsLeft := 3, retryDelay := 0, phase := .awaitDone false } }
    sessionOf (step s) = none ∧ retOf (step s) = none ∧ regsOf (step s) = some failedRegs := by decide

/-- R60: a pending call does not hold up a command, and hands its result back beside it. -/
theorem test_call_beside :
    let s : State := { stateAt goodRegs [command true] with call := some (.symbol 26 50) }
    regsOf (step s) = some { regsAt .s0IdleHigh 0 with coldQ := true } ∧ retOf (step s) = some (.symbol (.bit false)) := by decide

/-! ## Scenarios and placed words -/

/-- R83: position 0 of a wave is tick 1003 of the attempt. -/
theorem test_wave :
    waveLevel [(.high, 30), (.low, 80), (.high, 1)] 29 = .high ∧ waveLevel [(.high, 30), (.low, 80), (.high, 1)] 30 = .low ∧
    waveLevel [(.high, 30), (.low, 80), (.high, 1)] 500 = .high := by decide

/-- A placed state code, command and frame run in the next step. -/
theorem test_placed :
    regsOf (step (State.reset.withFetchWord 8 3)) = some (regsAt .w2RelHigh 0) ∧
    regsOf (step (State.reset.withFetchWord 2 2)) = some (regsAt .s0IdleHigh 0) ∧
    retOf (step (State.reset.withFetchWord 40 0x01900110A2)) = some (.decoded (.ok 400 272)) := by decide

/-! ## Witnesses: for every statement with hypotheses, a state and operands that meet them -/

/-- The tick of a list of equal inputs. -/
theorem streamAt_replicate (s : State) (n k : Nat) (i : Input) (h : s.env = List.replicate n i) (hk : k < n) :
    s.streamAt k = i := by
  obtain ⟨m, hm⟩ : ∃ m, n - k = m + 1 := ⟨n - k - 1, by omega⟩
  simp [State.streamAt, h, List.drop_replicate, hm, List.replicate_succ]

/-- The ticks of an input followed by equal inputs. -/
theorem streamAt_cons (s : State) (n k : Nat) (i q : Input) (h : s.env = i :: List.replicate n q) (hk : k < n) :
    s.streamAt (k + 1) = q := by
  obtain ⟨m, hm⟩ : ∃ m, n - k = m + 1 := ⟨n - k - 1, by omega⟩
  simp [State.streamAt, h, List.drop_replicate, hm, List.replicate_succ]

/-- No reset in equal inputs without one. -/
theorem noReset_replicate (s : State) (n : Nat) (i : Input) (h : s.env = List.replicate n i) (hi : i.rst = false) :
    NoReset s n := by
  intro k hk
  rw [streamAt_replicate s n k i h hk, hi]

/-- A host that does not stop in equal inputs. -/
theorem noStop_replicate (s : State) (n : Nat) (i : Input) (h : s.env = List.replicate n i) (hi : i.stop = false) :
    NoStop s n := by
  intro k hk
  rw [streamAt_replicate s n k i h hk, hi]

/-- No reset in an input followed by equal inputs, all without one. -/
theorem noReset_cons (s : State) (n : Nat) (i q : Input) (h : s.env = i :: List.replicate n q) (hi : i.rst = false)
    (hq : q.rst = false) : NoReset s (n + 1) := by
  intro k hk
  cases k with
  | zero => simp [State.streamAt, h, hi]
  | succ k => rw [streamAt_cons s n k i q h (by omega), hq]

/-- The invariant of a state in a wait, whose timer stands at the timeout. -/
theorem inv_waiting : RegsInv Config.standard.toParams (regsAt .w3AckLow 100) := by
  constructor <;> first | decide | exact fun h => absurd h (by decide)

/-- The invariant of the reset state. -/
theorem inv_reset (c : Config) : RegsInv c.toParams Regs.reset := by
  constructor <;> first
    | decide
    | exact fun h => absurd h (by decide)
    | exact Nat.zero_le _

/-- The invariant of a failed attempt. -/
theorem inv_failed : RegsInv Config.standard.toParams failedRegs := by
  constructor <;> first | decide | exact fun h => absurd h (by decide)

/-- The invariant of the end of P1. -/
theorem inv_good : RegsInv Config.standard.toParams goodRegs := by
  constructor <;> first | decide | exact fun _ => ⟨400, 272, by decide, by decide, by decide⟩

/-- The same in the sign-magnitude reading. -/
theorem inv_good_signed : RegsInv Config.standardSigned.toParams goodRegs := by
  constructor <;> first | decide | exact fun _ => ⟨400, 272, by decide, by decide, by decide⟩

/-- The invariant of a state without a session. -/
theorem stateInv_of (s : State) (h : RegsInv s.cfg.toParams s.regs) (hs : s.session = none) : StateInv s := by
  intro _
  refine ⟨h, ?_⟩
  intro ss n hss
  rw [hs] at hss
  cases hss

theorem witness_resetTick : (stateAt (regsAt .bLo 7) [resetInput]).ports.rst = true := by decide

theorem witness_beforeReset :
    let s : State := { stateAt Regs.reset [quietInput] with live := false }
    s.live = false ∧ s.ports.rst = false := by decide

/-- Each clause: no call; a call beside `IDLE`; a `wait_for_level` where its wait state is, and where it is not. -/
theorem witness_stepRuns :
    let s := stateAt (regsAt .bLo 7) [quietInput]
    let c : State := { stateAt Regs.reset [quietInput] with call := some (.symbol 26 50) }
    let w : State := { stateAt (regsAt .bLo 7) [quietInput] with call := some (.wait .low 500) }
    let v : State := { stateAt (regsAt .bHi 7) [quietInput] with call := some (.wait .low 500) }
    (s.live = true ∧ s.ports.rst = false ∧ fetch s = .ok .bLo ∧ s.call = none ∧ stNamed s.regs.st = true) ∧
    (c.live = true ∧ c.ports.rst = false ∧ fetch c = .ok (.symbol 26 50) ∧ c.session = none ∧ stNamed c.regs.st = true ∧
      c.call = some (.symbol 26 50)) ∧
    (w.live = true ∧ w.ports.rst = false ∧ w.session = none ∧ w.call = some (.wait .low 500) ∧ isWait w.regs.st = true ∧
      waitTarget w.regs.st = .low ∧ waitTimeout w.cfg.toParams w.regs.st = 500 ∧ fetch w = .ok (.waitForLevel .low 500)) ∧
    (v.live = true ∧ v.ports.rst = false ∧ v.session = none ∧ v.call = some (.wait .low 500) ∧ waitTarget v.regs.st ≠ .low ∧
      fetch v = .ok .bHi) ∧
    ({ c with session := some { attemptsLeft := 0, retryDelay := 0, phase := .request true } } : State).session ≠ none := by
  decide

theorem witness_roundTrip :
    encode (.frame40 0x0190 0x0110 0xA2) = some { fmt := .frame40, bits := 0x01900110A2 } ∧
    decode { fmt := .frame40, bits := 0x01900110A2 } = .ok (.frame40 0x0190 0x0110 0xA2) := by decide

theorem witness_codes : stCode .bHi = stCode .bHi ∧ errCode (some .e9) = errCode (some .e9) := by decide

/-- An idle block without a command, and a busy block with one. -/
theorem witness_busyCommand :
    ((stateAt goodRegs [shows (Triple.all .low)]).regs.st = .idle ∧ (stateAt goodRegs [shows (Triple.all .low)]).ports.start = false) ∧
    (stateAt (regsAt .s9Validate 0) [command true]).regs.st ≠ .idle := by decide

theorem witness_readCommand :
    (stateAt goodRegs [command true]).regs.st = .idle ∧ (stateAt goodRegs [command true]).ports.start = true ∧
    ∃ t, exec .idle (stateAt goodRegs [command true]) = .next t ∧ t.regs.st ≠ .idle := ⟨rfl, rfl, _, rfl, by decide⟩

theorem witness_idle :
    (stateAt goodRegs [quietInput]).ports.start = false ∧ (stateAt goodRegs [command true]).ports.start = true := by decide

theorem witness_commandRow :
    let s := stateAt goodRegs [command true]
    s.regs.st = .idle ∧
    decode { fmt := .cmd, bits := (if s.ports.start then 2 else 0) + (if s.ports.cold then 1 else 0) } = .ok .readCold := by
  decide

/-- Inputs that differ and that the step does not tell apart: in a driving state, in `IDLE` without a command, in a wait state,
and with `rst` in any state. -/
theorem witness_unread :
    let q := shows (Triple.all .low)
    let c : Input := { command false with smp := Triple.all .low }
    let r : Input := { quietInput with rst := true }
    (command true ≠ q ∧ (command true).rst = q.rst ∧ (regsAt .s1StartLow 5).st ≠ .idle ∧ isWait (regsAt .s1StartLow 5).st = false) ∧
    (quietInput ≠ q ∧ quietInput.rst = q.rst ∧ quietInput.start = q.start ∧ quietInput.start = false ∧
      isWait (regsAt .idle 0).st = false) ∧
    (c ≠ q ∧ c.rst = q.rst ∧ c.smp = q.smp ∧ isWait (regsAt .bLo 5).st = true ∧ (regsAt .bLo 5).st ≠ .idle) ∧
    (r ≠ resetInput ∧ r.rst = resetInput.rst ∧ r.rst = true) ∧
    State.reset.session = none ∧ q.stop = r.stop := by decide

theorem witness_driving :
    (regsAt .s0IdleHigh 0).tmr.toNat = Config.standard.tIdleUs - 1 ∧
    (regsAt .s0IdleHigh 1).tmr.toNat ≠ Config.standard.tIdleUs - 1 ∧
    (regsAt .s1StartLow 999).tmr.toNat = Config.standard.tStartLow - 1 ∧
    (regsAt .s1StartLow 998).tmr.toNat ≠ Config.standard.tStartLow - 1 ∧
    (regsAt .s2Release 0).st = .s2Release ∧ (regsAt .w2RelHigh 0).st = .w2RelHigh := by decide

theorem witness_restore :
    (stateAt { regsAt .s8Restore 0 with err := some .e7 } []).regs.err ≠ none ∧ (stateAt (regsAt .s8Restore 0) []).regs.err = none := by
  decide

theorem witness_startSignal :
    let s := stateAt (regsAt .s1StartLow 0) (List.replicate 1000 quietInput)
    s.live = true ∧ s.regs.st = .s1StartLow ∧ s.regs.tmr = 0 ∧ NoReset s s.cfg.tStartLow :=
  ⟨rfl, rfl, rfl, noReset_replicate _ 1000 quietInput rfl rfl⟩

/-- All three cases of the five handshake waits and of the two waits of a bit, at the timeouts. -/
theorem witness_waits :
    (∀ w ∈ [St.w2RelHigh, .w3AckLow, .w4AckHigh, .w5SbLow, .w6SbHigh, .bLo, .bHi], ∃ n : Timer,
      waitTimeout Config.standard.toParams w ≤ n.toNat ∧ (n - 1).toNat < waitTimeout Config.standard.toParams w) ∧
    (stateAt (regsAt .bHi 499) [quietInput]).ports.smp = { s0 := .high, s1 := .high, s2 := .high } ∧
    (stateAt (regsAt .bLo 499) [shows (Triple.all .low)]).ports.smp = { s0 := .low, s1 := .low, s2 := .low } ∧
    (stateAt (regsAt .bHi 499) [shows { s0 := .high, s1 := .low, s2 := .high }]).ports.smp ≠
      { s0 := .high, s1 := .high, s2 := .high } := by
  refine ⟨?_, by decide, by decide, by decide⟩
  intro w hw
  refine ⟨BitVec.ofNat 10 (waitTimeout Config.standard.toParams w), ?_⟩
  simp only [List.mem_cons, List.not_mem_nil, or_false] at hw
  rcases hw with h | h | h | h | h | h | h <;> subst h <;> decide

theorem witness_waitFunction :
    waitForLevel .high 2 (fun e => if e = 1 then Triple.all .high else Triple.all .low) = .elapsed 1 ∧
    waitForLevel .high 1 (fun e => if e = 1 then Triple.all .high else Triple.all .low) = .timeout := by decide

theorem witness_waitCall :
    let s := stateAt (regsAt .w3AckLow 99) [shows (Triple.all .low)]
    isWait s.regs.st = true ∧ 99 ≤ s.regs.tmr.toNat ∧ s.regs.tmr.toNat < 100 ∧ 100 ≤ 1023 ∧
    s.ports.smp = { s0 := .low, s1 := .low, s2 := .low } ∧ s.ports.smp ≠ { s0 := .high, s1 := .high, s2 := .high } ∧
    isWait State.reset.regs.st = false ∧ 1023 < 1024 := by decide

/-- V2.1-5 and V2.1-6 as the call of `W3_ACK_LOW` from elapsed time 99 on: the level there in the last poll, and not. -/
theorem witness_waitCallRun :
    let s : State := { stateAt (regsAt .w3AckLow 99) (List.replicate 2 (shows (Triple.all .low))) with call := some (.wait .low 100) }
    let q : State := { stateAt (regsAt .w3AckLow 99) (List.replicate 2 quietInput) with call := some (.wait .low 100) }
    (s.live = true ∧ isWait s.regs.st = true ∧ s.session = none ∧ Level.low = waitTarget s.regs.st ∧
      100 = waitTimeout s.cfg.toParams s.regs.st ∧ s.call = some (.wait .low 100) ∧ 99 = s.regs.tmr.toNat ∧ NoReset s 2 ∧
      (s.streamAt 0).smp = Triple.all .low ∧ ∀ k < 0, (s.streamAt k).smp ≠ Triple.all .low) ∧
    (q.live = true ∧ isWait q.regs.st = true ∧ q.session = none ∧ q.call = some (.wait .low 100) ∧ 99 = q.regs.tmr.toNat ∧
      NoReset q 2 ∧ ∀ k < 1, (q.streamAt k).smp ≠ Triple.all .low) :=
  ⟨⟨rfl, rfl, rfl, rfl, rfl, rfl, rfl, noReset_replicate _ 2 _ rfl rfl, by decide, by decide⟩,
    rfl, rfl, rfl, rfl, rfl, noReset_replicate _ 2 quietInput rfl rfl, by decide⟩

/-- The last poll of `W3_ACK_LOW`: accepting, and not. -/
theorem witness_waitAgrees :
    let s := stateAt (regsAt .w3AckLow 99) (List.replicate 2 (shows (Triple.all .low)))
    let q := stateAt (regsAt .w3AckLow 99) (List.replicate 2 quietInput)
    (s.live = true ∧ isWait s.regs.st = true ∧ s.regs.tmr.toNat ≤ waitTimeout s.cfg.toParams s.regs.st ∧
      NoReset s (waitTimeout s.cfg.toParams s.regs.st - s.regs.tmr.toNat + 1) ∧
      waitFrom (waitTarget s.regs.st) (fun k => (s.streamAt (k - s.regs.tmr.toNat)).smp)
        (waitTimeout s.cfg.toParams s.regs.st - s.regs.tmr.toNat) s.regs.tmr.toNat = .elapsed 99) ∧
    waitFrom (waitTarget q.regs.st) (fun k => (q.streamAt (k - q.regs.tmr.toNat)).smp)
      (waitTimeout q.cfg.toParams q.regs.st - q.regs.tmr.toNat) q.regs.tmr.toNat = .timeout :=
  ⟨⟨rfl, rfl, by decide, noReset_replicate _ 2 _ rfl rfl, by decide⟩, by decide⟩

/-- The boundaries of the three cases of a symbol. -/
theorem witness_symbol :
    stNamed State.reset.regs.st = true ∧ 49 < Config.standard.thBit ∧ Config.standard.thBit ≤ 50 ∧ 499 < Config.standard.toBitLow ∧ 499 < Config.standard.toBitHigh ∧
    Config.standard.toBitLow ≤ 500 ∧ Config.standard.toBitHigh ≤ 500 := by decide

/-- A symbol of 50 HIGH and 1 LOW ticks, of which the block in `B_LO` sees 49, 1 and the next HIGH tick. -/
theorem witness_symbolOnTheLine :
    let s := stateAt (regsAt .bLo 1) (List.replicate 49 quietInput ++ [shows (Triple.all .low), quietInput])
    s.live = true ∧ s.regs.st = .bLo ∧ s.regs.tmr = 1 ∧ s.regs.bitcnt.toNat < 40 ∧
    symbolResult s.cfg.toParams 50 1 = .bit true ∧ NoReset s (50 + 1) ∧ LineAt s 0 (50 - 1) .high ∧
    LineAt s (50 - 1) 1 .low ∧ LineAt s (50 - 1 + 1) 1 .high := by
  refine ⟨rfl, rfl, rfl, by decide, by decide, ?_, ?_, ?_, ?_⟩
  · unfold NoReset; decide
  · unfold LineAt; decide
  · unfold LineAt; decide
  · unfold LineAt; decide

/-- A line of one tick LOW, one tick HIGH, for ever: what a block that has just entered `B_LO` can see of symbols of one tick
each. -/
def alternating : Nat → List Input
  | 0 => []
  | n + 1 => shows (Triple.all .low) :: quietInput :: alternating n

theorem symbolStart_ones (k : Nat) : symbolStart (fun _ => 1) (fun _ => 1) k = 2 * k := by
  induction k with
  | zero => rfl
  | succ k ih =>
    show symbolStart (fun _ => 1) (fun _ => 1) k + (1 + 1) = _
    omega

/-- Forty symbols of one HIGH and one LOW tick: forty zeros. -/
theorem witness_fortySymbols :
    let s := stateAt (regsAt .bLo 1) (alternating 41)
    let one : Nat → Nat := fun _ => 1
    s.live = true ∧ RegsInv s.cfg.toParams s.regs ∧ s.regs.st = .bLo ∧ s.regs.tmr = 1 ∧ s.regs.bitcnt = 0 ∧
    80 = symbolStart one one 40 ∧ NoReset s (80 + 2) ∧
    ∀ k < 40, 1 ≤ one k ∧ 1 ≤ one k ∧ symbolResult s.cfg.toParams (one k) (one k) = .bit false ∧
      LineAt s (symbolStart one one k) (one k - 1) .high ∧ LineAt s (symbolStart one one k + (one k - 1)) (one k) .low ∧
      LineAt s (symbolStart one one k + (one k - 1 + one k)) 1 .high := by
  refine ⟨rfl, ?_, rfl, rfl, rfl, rfl, ?_, ?_⟩
  · constructor <;> first | decide | exact fun h => absurd h (by decide)
  · unfold NoReset; decide
  · intro k hk
    rw [symbolStart_ones]
    refine ⟨le_refl 1, le_refl 1, (by decide : symbolResult Config.standard.toParams 1 1 = .bit false),
      fun j hj => absurd hj (Nat.not_lt_zero j), ?_⟩
    unfold LineAt
    revert k
    decide

theorem witness_forty : (List.replicate 40 50).length = 40 ∧ 39 < (List.replicate 40 50).length := by decide

theorem witness_oneOutcome :
    decodeFrame Config.standard.toParams 0x01 0x90 0x01 0x10 0xA2 = .ok 400 272 ∧
    decodeFrame Config.standard.toParams 0x02 0x76 0x01 0x00 0x00 = .e8 ∧
    decodeFrame Config.standard.toParams 0x03 0xE9 0x01 0x10 0xFD = .e9 := by decide

theorem witness_signModes : 65535 < 65536 ∧ 32767 < 65536 ∧ 32767 < 32768 ∧ 32768 ≤ 65535 ∧ 32768 ≤ 32768 := by decide

theorem witness_validate :
    let f := (0x0190806576 : Frame).toNat
    f / 4294967296 = 0x01 ∧ f / 16777216 % 256 = 0x90 ∧ f / 65536 % 256 = 0x80 ∧ f / 256 % 256 = 0x65 ∧ f % 256 = 0x76 ∧
    (32768 - ((0x80 * 256 + 0x65 : Nat) : Int)) = -101 := by decide

theorem witness_frameWord :
    stNamed State.reset.regs.st = true ∧ temperatureOf Config.standard.signMode (0x0110 : BitVec 16).toNat = 272 := by decide

/-- A step that publishes a reading, and one that keeps it. -/
theorem witness_published :
    (∃ t, step (stateAt { regsAt .s9Validate 0 with bitcnt := 40, frame := 0x01900110A2 } [quietInput]) = .next t ∧
      t.regs.valid = true) ∧
    ∃ t, step (stateAt goodRegs [quietInput]) = .next t ∧ t.regs.valid = true := ⟨⟨_, rfl, rfl⟩, ⟨_, rfl, rfl⟩⟩

theorem witness_range :
    goodRegs.valid = true ∧ RegsInv Config.standard.toParams goodRegs ∧ RegsInv Config.standardSigned.toParams goodRegs :=
  ⟨rfl, inv_good, inv_good_signed⟩

theorem witness_raiseRows :
    Config.standard.toRelHigh ≤ (regsAt .w2RelHigh 100).tmr.toNat ∧ Config.standard.toAckLow ≤ (regsAt .w3AckLow 100).tmr.toNat ∧
    Config.standard.toAckHigh ≤ (regsAt .w4AckHigh 100).tmr.toNat ∧ Config.standard.toSbLow ≤ (regsAt .w5SbLow 200).tmr.toNat ∧
    Config.standard.toSbHigh ≤ (regsAt .w6SbHigh 200).tmr.toNat ∧ Config.standard.toBitLow ≤ (regsAt .bLo 500).tmr.toNat ∧
    Config.standard.toBitHigh ≤ (regsAt .bHi 500).tmr.toNat ∧
    decodeWord Config.standard.toParams 0x0276010000 = .e8 ∧ decodeWord Config.standard.toParams 0x03E90110FD = .e9 := by decide

/-- A state that holds a reserved code, without a session. -/
theorem witness_reserved :
    stNamed (stateAt (regsAt .reserved13 0) []).regs.st = false ∧ (stateAt (regsAt .reserved13 0) []).session = none := by decide

theorem witness_failureExit :
    let s := stateAt (regsAt .w3AckLow 100) (List.replicate 2 quietInput)
    s.live = true ∧ RegsInv s.cfg.toParams s.regs ∧ isWait s.regs.st = true ∧
    waitTimeout s.cfg.toParams s.regs.st ≤ s.regs.tmr.toNat ∧ NoReset s 2 :=
  ⟨rfl, inv_waiting, rfl, by decide, noReset_replicate _ 2 quietInput rfl rfl⟩

/-- A state for the statements about every state that obeys the invariant (reserved codes, the next state, the table and the
length of an attempt): in a wait, with a next state. -/
theorem witness_invariant :
    let s := stateAt (regsAt .w3AckLow 100) [quietInput]
    s.live = true ∧ StateInv s ∧ RegsInv s.cfg.toParams s.regs ∧ s.ports.rst = false ∧ s.regs.st ≠ .idle ∧
    ∃ t, step s = .next t :=
  ⟨rfl, stateInv_of _ inv_waiting rfl, inv_waiting, by decide, by decide, ⟨_, rfl⟩⟩

theorem witness_row :
    let s := stateAt (regsAt .w3AckLow 100) [quietInput]
    s.live = true ∧ s.ports.rst = false ∧
    Row s.cfg.toParams s.ports s.regs { s.regs with err := some .e2, tmr := 0, st := .s8Restore } :=
  ⟨rfl, by decide, .w3Timeout rfl (by decide)⟩

theorem witness_timer : RegsInv Config.standard.toParams Regs.reset := inv_reset Config.standard

theorem witness_constants : ∃ t, step (stateAt goodRegs [command false]) = .next t := ⟨_, rfl⟩

/-- `frame` changes at an accepting `B_LO` and at a command. -/
theorem witness_frameChanges :
    (∃ t, step (stateAt (regsAt .bLo 50) [shows (Triple.all .low)]) = .next t ∧ t.regs.frame ≠ 0) ∧
    ∃ t, step (stateAt goodRegs [command false]) = .next t ∧ t.regs.frame ≠ goodRegs.frame :=
  ⟨⟨_, rfl, by decide⟩, ⟨_, rfl, by decide⟩⟩

theorem witness_lines :
    (regsAt .idle 0).st ∈ [St.idle, .s0IdleHigh, .s2Release, .s8Restore, .s9Validate] ∧ (regsAt .s1StartLow 0).st = .s1StartLow ∧
    (regsAt .bHi 1).st ∈ [St.w2RelHigh, .w3AckLow, .w4AckHigh, .w5SbLow, .w6SbHigh, .bLo, .bHi] ∧
    (regsAt .s1StartLow 0).out.sdaOe = true ∧ (regsAt .s1StartLow 0).out.sdaOut = .low := by decide

/-- The three cases of the outcome. -/
theorem witness_outcome :
    (RegsInv Config.standard.toParams goodRegs ∧ goodRegs.done = true ∧ goodRegs.valid = true) ∧
    (RegsInv Config.standard.toParams failedRegs ∧ failedRegs.done = true ∧ failedRegs.valid = false) ∧
    (RegsInv Config.standard.toParams Regs.reset ∧ Regs.reset.done = false) :=
  ⟨⟨inv_good, rfl, rfl⟩, ⟨inv_failed, rfl, rfl⟩, inv_reset Config.standard, rfl⟩

/-- A busy state that shows a code: `S8_RESTORE` with E2 pending. -/
theorem witness_busyStatus :
    let r : Regs := { regsAt .s8Restore 0 with err := some .e2 }
    RegsInv Config.standard.toParams r ∧ r.out.busy = true ∧ r.out.err ≠ 0 := by
  refine ⟨?_, by decide, by decide⟩
  constructor <;> first | decide | exact fun h => absurd h (by decide)

/-- A cold command followed by 41620 quiet ticks. -/
theorem witness_attempt :
    let s := stateAt goodRegs (command true :: List.replicate (attemptBound Config.standard.toParams true) quietInput)
    s.live = true ∧ s.regs.st = .idle ∧ s.ports.start = true ∧
    NoReset s (attemptBound s.cfg.toParams s.ports.cold + 1) :=
  ⟨rfl, rfl, rfl, noReset_cons _ (attemptBound Config.standard.toParams true) (command true) quietInput rfl rfl rfl⟩

/-- P3 with its 1105 ticks. -/
theorem witness_noSensor :
    let s := stateAt Regs.reset (command false :: List.replicate 1104 quietInput)
    s.live = true ∧ s.regs.st = .idle ∧ s.ports.start = true ∧
    1105 = s.cfg.tIdleUs + s.cfg.tStartLow + 2 + s.cfg.toAckLow + 2 ∧ NoReset s 1105 ∧
    ∀ k < 1105, s.cfg.tIdleUs + s.cfg.tStartLow + 2 ≤ k → (s.streamAt k).smp = Triple.all .high := by
  refine ⟨rfl, rfl, rfl, rfl, noReset_cons _ 1104 (command false) quietInput rfl rfl rfl, ?_⟩
  intro k hk hl
  cases k with
  | zero => rfl
  | succ k => rw [streamAt_cons _ 1104 k (command false) quietInput rfl (by omega)]; rfl

/-- The default budget, the budget 0 and a budget of 3. -/
theorem witness_sample :
    State.reset.session = none ∧ stNamed State.reset.regs.st = true ∧ 10 = (none : Option Nat).getD State.reset.cfg.maxAttemptsDefault ∧
    0 = (some 0).getD State.reset.cfg.maxAttemptsDefault ∧ 2 + 1 = (some 3).getD State.reset.cfg.maxAttemptsDefault := by decide

theorem witness_secondSample :
    ({ State.reset with session := some { attemptsLeft := 0, retryDelay := 0, phase := .request false } } : State).session ≠
      none := by decide

/-- Each phase of the host agent with each condition of its moves: on a block that is busy, done well or done with an error,
with and without a delay, and with a host that stops. -/
theorem witness_hostAgent :
    let f (r : Regs) (left d : Nat) (ph : Phase) : State :=
      { stateAt r [quietInput] with session := some { attemptsLeft := left, retryDelay := d, phase := ph } }
    let g (r : Regs) : State :=
      { stateAt r [{ quietInput with stop := true }] with
        session := some { attemptsLeft := 1, retryDelay := 0, phase := .request true } }
    ((g (regsAt .bLo 3)).streamAt 0).stop = true ∧ (g (regsAt .bLo 3)).regs.st ≠ .idle ∧ (g goodRegs).regs.st = .idle ∧
    ((f goodRegs 9 2 (.request true)).streamAt 0).stop = false ∧
    (f (regsAt .bLo 3) 9 2 (.request true)).regs.st ≠ .idle ∧ (f goodRegs 9 2 (.request true)).regs.st = .idle ∧
    (f (regsAt .bLo 3) 9 2 (.awaitDone false)).regs.done = false ∧ (f goodRegs 9 2 (.awaitDone true)).regs.done = true ∧
    (f goodRegs 9 2 (.awaitDone false)).regs.valid = true ∧
    ((f failedRegs 0 2 (.awaitDone false)).regs.done = true ∧ (f failedRegs 0 2 (.awaitDone false)).regs.valid = false) ∧
    (f failedRegs 1 0 (.awaitDone false)).session = some { attemptsLeft := 1, retryDelay := 0, phase := .awaitDone false } ∧
    (f goodRegs 0 0 (.awaitDone true)).session = some { attemptsLeft := 0, retryDelay := 0, phase := .awaitDone true } ∧
    ((f { regsAt .bLo 3 with done := true } 1 0 (.awaitDone true)).regs.done = true ∧
      (f { regsAt .bLo 3 with done := true } 1 0 (.awaitDone true)).regs.st ≠ .idle) ∧
    (f failedRegs 1 2 (.pause 1)).session = some { attemptsLeft := 1, retryDelay := 2, phase := .pause (0 + 1) } ∧
    (f failedRegs 1 2 (.pause 0)).regs.st = .idle ∧ (f (regsAt .bLo 3) 1 2 (.pause 0)).regs.st ≠ .idle ∧
    (f failedRegs 0 2 (.pause 0)).session = some { attemptsLeft := 0, retryDelay := 2, phase := .pause 0 } ∧
    (f (regsAt .bLo 3) 0 2 .finish).regs.st ≠ .idle ∧ (f goodRegs 0 2 .finish).regs.st = .idle := by decide

/-- After a failed warm attempt, and after a cold one that went well with no warm one in the budget (V2.4-10). -/
theorem witness_retryDelay :
    let ss (left : Nat) (c : Bool) : Session := { attemptsLeft := left, retryDelay := 2, phase := .awaitDone c }
    let s : State := { stateAt failedRegs (List.replicate 3 quietInput) with session := some (ss 9 false) }
    let q : State := { stateAt goodRegs (List.replicate 3 quietInput) with session := some (ss 0 true) }
    (s.live = true ∧ StateInv s ∧ s.regs.done = true ∧ s.regs.valid = false ∧ 0 < 9 ∧ s.session = some (ss 9 false) ∧
      NoReset s (2 + 1) ∧ NoStop s (2 + 1)) ∧
    (q.live = true ∧ StateInv q ∧ q.regs.done = true ∧ q.session = some (ss 0 true) ∧ NoReset q (2 + 1) ∧ NoStop q (2 + 1)) := by
  refine ⟨⟨rfl, fun _ => ⟨inv_failed, ?_⟩, rfl, rfl, by decide, rfl, noReset_replicate _ 3 quietInput rfl rfl,
      noStop_replicate _ 3 quietInput rfl rfl⟩,
    rfl, fun _ => ⟨inv_good, ?_⟩, rfl, rfl, noReset_replicate _ 3 quietInput rfl rfl, noStop_replicate _ 3 quietInput rfl rfl⟩ <;>
  · intro ss n _ _
    rfl

/-- A session that returns in this step. -/
theorem witness_sampleReturns :
    let s : State :=
      { stateAt goodRegs [quietInput] with
        session := some { attemptsLeft := 9, retryDelay := 2, phase := .awaitDone false } }
    s.live = true ∧ StateInv s ∧ ∃ t, step s = .next t ∧ t.session = none := by
  refine ⟨rfl, fun _ => ⟨inv_good, ?_⟩, ⟨_, rfl, rfl⟩⟩
  intro ss n _ _
  rfl

/-- A session that the host stops in this step. -/
theorem witness_sampleStops :
    let s : State :=
      { stateAt failedRegs [{ quietInput with stop := true }] with
        session := some { attemptsLeft := 3, retryDelay := 2, phase := .awaitDone false } }
    s.live = true ∧ StateInv s ∧ ∃ t, step s = .next t ∧ t.session = none := by
  refine ⟨rfl, fun _ => ⟨inv_failed, ?_⟩, ⟨_, rfl, rfl⟩⟩
  intro ss n _ _
  rfl

/-- A cold session with a budget of one, begun on an idle block, with quiet ticks for its whole bound. -/
theorem witness_sessionRun :
    let b := sampleBound Config.standard.toParams 1 5
    let ss : Session := { attemptsLeft := 1, retryDelay := 5, phase := .request true }
    let s : State := { stateAt Regs.reset (List.replicate b quietInput) with session := some ss }
    s.live = true ∧ StateInv s ∧ ss = beginSession 1 5 true ∧ s.session = some ss ∧
    NoReset s (sampleBound s.cfg.toParams 1 5) ∧ NoStop s (sampleBound s.cfg.toParams 1 5) := by
  refine ⟨rfl, fun _ => ⟨inv_reset Config.standard, ?_⟩, rfl, rfl,
    noReset_replicate _ (sampleBound Config.standard.toParams 1 5) quietInput rfl rfl,
    noStop_replicate _ (sampleBound Config.standard.toParams 1 5) quietInput rfl rfl⟩
  intro ss n _ _
  rfl

/-- V2.4-3: nine failures, then a success, within a budget of ten; V2.4-5: three failures. -/
theorem witness_counts :
    let stub : Nat → DecodeOutcome := fun k => if k < 9 then .err .e2 else .ok 400 272
    1 ≤ 10 ∧ (∀ k < 10 - 1, ∃ e, stub k = .err e) ∧ stub (10 - 1) = .ok 400 272 ∧ ∀ k < 3, ∃ e, stub k = .err e := by
  refine ⟨by decide, ?_, by decide, ?_⟩
  · intro k hk
    exact ⟨.e2, if_pos hk⟩
  · intro k hk
    exact ⟨.e2, if_pos (by omega)⟩

end Sys2Proof.Tests
end

section
/-! The ports as functions of the registers (10_state.md R32, R33, R38, R54): what each output says of the state, what the
codes of `err` are, and what the outcome is in each combination of `done`, `valid` and `err`. -/

namespace Sys2Proof.Machine

/-! ## The line (R33, R54) -/

@[simp] theorem out_sdaOe (r : Regs) : r.out.sdaOe = !isWait r.st := rfl

/-- LOW is on the port in `S1_START_LOW` and nowhere else (R54). -/
@[simp] theorem out_sdaOut_eq_low (r : Regs) : r.out.sdaOut = .low ↔ r.st = .s1StartLow := by
  change (if r.st = .s1StartLow then Level.low else .high) = .low ↔ _
  split <;> simp [*]

@[simp] theorem out_sdaOut_eq_high (r : Regs) : r.out.sdaOut = .high ↔ r.st ≠ .s1StartLow := by
  rw [Ne, ← out_sdaOut_eq_low]
  cases r.out.sdaOut <;> simp

/-- A state other than `S1_START_LOW` in which the line is not read drives HIGH (R33). -/
theorem drives_high (r : Regs) (hw : isWait r.st = false) (h1 : r.st ≠ .s1StartLow) :
    r.out.sdaOe = true ∧ r.out.sdaOut = .high := by
  simp [hw, h1]

/-- A wait state leaves the line to the sensor (R33, R54). -/
theorem releases_line (r : Regs) (hw : isWait r.st = true) : r.out.sdaOe = false ∧ r.out.sdaOut = .high := by
  have h1 : r.st ≠ .s1StartLow := by
    intro h
    rw [h] at hw
    cases hw
  simp [hw, h1]

/-- The states of R33's first row: they drive the line, and not LOW. -/
theorem drivesHigh_of_mem {x : St} (h : x ∈ [St.idle, .s0IdleHigh, .s2Release, .s8Restore, .s9Validate]) :
    isWait x = false ∧ x ≠ .s1StartLow := by
  revert x
  decide

/-- The wait states, listed (R33). -/
theorem isWait_iff_mem (x : St) :
    isWait x = true ↔ x ∈ [St.w2RelHigh, .w3AckLow, .w4AckHigh, .w5SbLow, .w6SbHigh, .bLo, .bHi] := by
  cases x <;> decide

/-- Settles O47: R33's table is read off which states are wait states and which one drives LOW; the other ports are registers. -/
theorem lineOutputsPerState : Obligations.LineOutputsPerState := by
  intro r
  refine ⟨fun h => ?drivesHigh, fun h => ?startLow, fun h => ?released, fun h => ?lowOnly, ?busy, rfl, rfl, rfl, rfl, rfl⟩
  case drivesHigh =>
    obtain ⟨hw, h1⟩ := drivesHigh_of_mem h
    exact drives_high r hw h1
  case startLow => exact ⟨by simp [h, isWait], (out_sdaOut_eq_low r).mpr h⟩
  case released => exact releases_line r ((isWait_iff_mem r.st).mpr h)
  case lowOnly => exact (out_sdaOut_eq_low r).mp h.2
  case busy => simp

/-! ## The outcome (R38) -/

/-- The number of an error is a code from 1 to 9 (R73). -/
theorem errNumber_bounds (k : ErrName) : 1 ≤ errNumber k ∧ errNumber k ≤ 9 := by
  cases k <;> decide

@[simp] theorem errCode_none : errCode none = 0 := rfl

/-- Register `err` holds k for Ek: no number is cut off by the four bits (R73). -/
@[simp] theorem errCode_some_toNat (k : ErrName) : (errCode (some k)).toNat = errNumber k := by
  have hk := errNumber_bounds k
  change errNumber k % 2 ^ 4 = errNumber k
  omega

@[simp] theorem out_err (r : Regs) : r.out.err = errCode r.err := rfl

theorem outcome_of_not_done (r : Regs) (hd : r.done = false) : r.outcome = none := by
  simp [Regs.outcome, hd]

theorem outcome_of_valid (r : Regs) (hd : r.done = true) (hv : r.valid = true) :
    r.outcome = some (.ok r.humX10 r.tempX10) := by
  simp [Regs.outcome, hd, hv]

theorem outcome_of_error (r : Regs) (k : ErrName) (hd : r.done = true) (hv : r.valid = false) (he : r.err = some k) :
    r.outcome = some (.err k) := by
  simp [Regs.outcome, hd, hv, he]

/-- A finished attempt without a reading has an error (R39(c)). -/
theorem RegsInv.exists_error {p : Params} {r : Regs} (hi : RegsInv p r) (hd : r.done = true) (hv : r.valid = false) :
    ∃ k, r.err = some k :=
  Option.ne_none_iff_exists'.mp (hi.failed_has_code hd hv)

/-- Settles O48: the three combinations of `done` and `valid`; the invariant gives no error beside a reading (R39(a)), and an
error with cleared readings beside none (R39(c), R39(d)). -/
theorem outcomeIsReadWhileDone : Obligations.OutcomeIsReadWhileDone := by
  intro p r hi
  refine ⟨outcome_of_not_done r, fun hd hv => ?ok, fun hd hv => ?error⟩
  case ok =>
    obtain ⟨_, hnone, _⟩ := hi.valid_outcome hv
    exact ⟨outcome_of_valid r hd hv, by simp [hnone], rfl⟩
  case error =>
    obtain ⟨k, hk⟩ := hi.exists_error hd hv
    obtain ⟨hlow, hhigh⟩ := errNumber_bounds k
    obtain ⟨hhum, htemp⟩ := hi.no_partial_result hv
    exact ⟨k, outcome_of_error r k hd hv hk, by simp [hk], by simp [hk], hlow, hhigh, hhum, htemp⟩

end Sys2Proof.Machine
end

section
/-! PROOFS of the family 20_memory.md: how captured bits come to lie in register `frame` (R24, R56), and its bytes and
big-endian fields (R57). -/

namespace Sys2Proof.Machine

/-! ## Capture: a shift register filled from the right (R24, R56) -/

/-- The captured bit is the least significant of the new frame (R24). -/
theorem captureBit_frame_getLsbD_zero (p : Params) (r : Regs) (e : Nat) :
    (captureBit p r e).frame.getLsbD 0 = bitOfElapsed p e :=
  BitVec.getLsbD_concat_zero

/-- A capture moves every earlier bit one place to the left (R24). -/
theorem captureBit_frame_getLsbD_succ (p : Params) (r : Regs) (e : Nat) {j : Nat} (hj : j < 39) :
    (captureBit p r e).frame.getLsbD (j + 1) = r.frame.getLsbD j :=
  calc (captureBit p r e).frame.getLsbD (j + 1)
      = (r.frame.extractLsb' 0 39).getLsbD j := BitVec.getLsbD_concat_succ
    _ = r.frame.getLsbD j := by simp [hj]

/-- After n ≤ 40 captures the k-th captured bit is `frame[n − 1 − k]`, whatever the frame held before: the last capture put its
bit at 0 and moved the earlier ones up by one. -/
theorem foldl_captureBit_getLsbD (p : Params) (r : Regs) (es : List Nat) (hn : es.length ≤ 40) (k : Nat)
    (hk : k < es.length) :
    (es.foldl (captureBit p) r).frame.getLsbD (es.length - 1 - k) = bitOfElapsed p es[k] := by
  induction es using List.reverseRecOn with
  | nil => cases hk
  | append_singleton es e ih =>
    simp only [List.length_append, List.length_singleton] at hn hk
    rw [List.foldl_concat, List.length_append, List.length_singleton, Nat.add_sub_cancel]
    rcases Nat.lt_succ_iff_lt_or_eq.mp hk with hlt | rfl
    · have hplace : es.length - k = (es.length - 1 - k) + 1 := by omega
      rw [hplace, captureBit_frame_getLsbD_succ p _ e (by omega), ih (by omega) hlt, List.getElem_append_left hlt]
    · rw [Nat.sub_self, captureBit_frame_getLsbD_zero, List.getElem_concat_length rfl]

/-- Bit j of byte i is `frame[32 − 8i + j]` (R12, R24). -/
theorem frameByte_getLsbD (f : Frame) (i : Nat) {j : Nat} (hj : j < 8) :
    (frameByte f i).getLsbD j = f.getLsbD (32 - 8 * i + j) := by
  simp [frameByte, hj]

/-- Settles O27: after forty captures the k-th bit is `frame[39 − k]`, and `39 − k = (32 − 8 (k div 8)) + (7 − k mod 8)` places
it in its byte. -/
theorem fortyBitsLieMostSignificantFirst : Obligations.FortyBitsLieMostSignificantFirst := by
  intro p r es hlen k hk
  have hbit : (es.foldl (captureBit p) r).frame.getLsbD (39 - k) = decide (p.thBit ≤ es[k]) := by
    have h := foldl_captureBit_getLsbD p r es hlen.le k hk
    rwa [hlen] at h
  have hplace : 32 - 8 * (k / 8) + (7 - k % 8) = 39 - k := by omega
  refine ⟨?byte, hbit⟩
  case byte => rw [frameByte_getLsbD _ _ (by omega), hplace, hbit]

/-! ## The bytes of a frame and its fields (R57) -/

/-- Byte i as a base-256 digit of the frame's number (R57). -/
theorem frameByte_toNat (f : Frame) (i : Nat) : (frameByte f i).toNat = f.toNat / 2 ^ (32 - 8 * i) % 256 := by
  rw [frameByte, BitVec.extractLsb'_toNat, Nat.shiftRight_eq_div_pow]

/-- Two adjacent bytes, the earlier one more significant, are the sixteen bits they cover (R57). -/
theorem frameByte_pair_toNat (f : Frame) {i : Nat} (hi : i ≤ 3) :
    (frameByte f i).toNat * 256 + (frameByte f (i + 1)).toNat = (f.extractLsb' (24 - 8 * i) 16).toNat := by
  have hplace : 32 - 8 * i = (24 - 8 * i) + 8 := by omega
  have hnext : 32 - 8 * (i + 1) = 24 - 8 * i := by omega
  rw [frameByte_toNat, frameByte_toNat, hplace, hnext, BitVec.extractLsb'_toNat, Nat.shiftRight_eq_div_pow, pow_add,
    ← Nat.div_div_eq_div_mul]
  omega

/-- Settles O28: each byte is a digit of the frame's number, the top one without a remainder as a frame has forty bits; each field
is a pair of adjacent bytes. -/
theorem frameBytesAndFields : Obligations.FrameBytesAndFields := by
  intro f
  have htop : f.toNat / 4294967296 % 256 = f.toNat / 4294967296 := by omega
  exact ⟨(frameByte_toNat f 0).trans htop, frameByte_toNat f 1, frameByte_toNat f 2, frameByte_toNat f 3,
    (frameByte_toNat f 4).trans (by simp),
    frameByte_pair_toNat f (i := 0) (by omega), frameByte_pair_toNat f (i := 2) (by omega)⟩

end Sys2Proof.Machine
end

section
/-! PROOFS of the family 40_edge_waiter.md: what a poll of the line accepts (R101). -/

namespace Sys2Proof.Machine

/-- Settles O17: a triple is unanimous exactly when it is the triple with the target in each place, and triples are equal exactly
when they agree sample by sample. -/
theorem pollAcceptsUnanimityOnly : Obligations.PollAcceptsUnanimityOnly := by
  intro a b c l
  calc unanimous { s0 := a, s1 := b, s2 := c } l = true
      ↔ ({ s0 := a, s1 := b, s2 := c } : Triple) = { s0 := l, s1 := l, s2 := l } := unanimous_iff _ l
    _ ↔ a = l ∧ b = l ∧ c = l := by rw [Triple.mk.injEq]

end Sys2Proof.Machine
end

section
/-! One tick of the machine and runs of ticks, for the proofs about `step` and `after`: a step without `rst` is the block's tick
of R140, and beside it the answer of the unit call that can run in that tick (log entry 5); so the registers of a run are the
block's ticks one after the other, and a busy block's tick reads the samples alone (R31). -/

namespace Sys2Proof.Machine

/-! ## One step -/

/-- What the unit call of this tick does to the model's own fields, once the block's tick has led to `t` (R60; log entry 5). -/
def State.besideTick (s t : State) : State :=
  match s.callNow with
  | none => t
  | some (.frame w) => t.answer (.decoded (decodeWord s.cfg.toParams w))
  | some (.symbol high low) => t.answer (.symbol (symbolResult s.cfg.toParams high low))
  | some (.wait l n) => t.answerWait (waitAnswer l n s.regs.tmr.toNat s.ports.smp)
  | some (.sample n d c) => t.startSession (beginSession (maxAttemptsOf s.cfg.toParams n) d c)

/-- The registers and the stream are the block's, whichever call runs beside it. -/
theorem besideTick_block (s t : State) : (s.besideTick t).regs = t.regs ∧ (s.besideTick t).cfg = t.cfg ∧
    (s.besideTick t).live = t.live ∧ (s.besideTick t).env = t.env ∧ (s.besideTick t).tick = t.tick := by
  unfold State.besideTick
  split <;> simp

/-- The three fields of a frame, put together again, are the frame (R77). -/
theorem fields_append (f : Frame) :
    (f.extractLsb' 24 16 ++ f.extractLsb' 8 16 ++ f.extractLsb' 0 8 : BitVec 40) = f := by
  have hhigh : (f.extractLsb' 24 16 ++ f.extractLsb' 8 16 : BitVec 32) = f.extractLsb' 8 32 :=
    BitVec.extractLsb'_append_extractLsb'_eq_extractLsb' rfl
  have hall : (f.extractLsb' 8 32 ++ f.extractLsb' 0 8 : BitVec 40) = f.extractLsb' 0 40 :=
    BitVec.extractLsb'_append_extractLsb'_eq_extractLsb' rfl
  rw [hhigh, hall, BitVec.extractLsb'_eq_self]

/-- FRAME40 fetched from the call surface hands back `decode_frame` of the word that stands there (R158). -/
theorem execFrame40_fields (f : Frame) (s : State) :
    execFrame40 (f.extractLsb' 24 16) (f.extractLsb' 8 16) (f.extractLsb' 0 8) s =
      besideBlock s fun t => t.answer (.decoded (decodeWord s.cfg.toParams f)) := by
  rw [execFrame40, fields_append]

/-- `wait_for_level` with the wait state's own operands is that state's tick, and hands back what the wait answers (R79,
R108). -/
theorem execWaitForLevel_own (s : State) (hw : isWait s.regs.st = true) :
    execWaitForLevel (waitTarget s.regs.st) (waitTimeout s.cfg.toParams s.regs.st) s =
      .next ((finishTick s (blockTick s.cfg.toParams s.ports s.regs)).answerWait
        (waitAnswer (waitTarget s.regs.st) (waitTimeout s.cfg.toParams s.regs.st) s.regs.tmr.toNat s.ports.smp)) := by
  obtain ⟨_, hmax⟩ := waitTimeout_bounds s.cfg s.regs.st hw
  rcases execWaitForLevel_cases (waitTarget s.regs.st) (waitTimeout s.cfg.toParams s.regs.st) s with
    ⟨hn, _⟩ | ⟨_, hn, _⟩ | ⟨_, _, h⟩
  · simp [hw] at hn
  · omega
  · rw [h, blockTick_wait _ _ _ hw]

/-- `rst` overrides everything (R220). -/
theorem step_rst (s : State) (hr : s.ports.rst = true) : step s = .next (resetTick s) := by
  simp [step, hr]

/-- Before the first reset a step without `rst` is refused (R223, U1). -/
theorem step_not_live (s : State) (hl : s.live = false) (hr : s.ports.rst = false) :
    step s = .refused .beforeFirstReset := by
  simp [step, hl, hr]

/-- Without `rst`, after the first reset, a step executes what it fetches. -/
theorem step_fetched (s : State) (i : Instr) (hl : s.live = true) (hr : s.ports.rst = false) (hf : fetch s = .ok i) :
    step s = exec i s := by
  simp [step, hl, hr, hf]

/-- With a unit call that can run, the fetch is that call. -/
theorem fetch_call (s : State) (c : Call) (h : s.callNow = some c) : fetch s = callInstr c := by
  simp [fetch, h]

/-- The word at the call surface is decoded into its fields (R77). -/
theorem callInstr_frame (f : Frame) : callInstr (.frame f) = .ok (decodeFrame40 f) := by
  have hf : f.toNat < 1099511627776 := f.isLt
  simp [callInstr, decode, hf]

/-- `sample` without a session begins one beside the block's tick (R172). -/
theorem execSample_no_session (n : Option Nat) (d : Nat) (c : Bool) (s : State) (h : s.session = none) :
    execSample n d c s =
      besideBlock s fun t => t.startSession (beginSession (maxAttemptsOf s.cfg.toParams n) d c) := by
  simp [execSample, h]

/-- A step in a named state, without `rst`: the block's tick of R140 and the unit call beside it. -/
theorem step_named (s : State) (hl : s.live = true) (hr : s.ports.rst = false) (hn : stNamed s.regs.st = true) :
    step s = .next (s.besideTick (finishTick s (blockTick s.cfg.toParams s.ports s.regs))) := by
  have hstep := fun i => step_fetched s i hl hr
  simp only [State.besideTick]
  cases hc : s.callNow with
  | none => exact (hstep _ (fetch_microstep s hc)).trans (exec_microstep s hn)
  | some c =>
    have hf := fetch_call s c hc
    cases c with
    | frame w =>
      calc step s = execFrame40 _ _ _ s := hstep _ (hf.trans (callInstr_frame w))
        _ = besideBlock s _ := execFrame40_fields w s
        _ = _ := besideBlock_named s _ hn
    | symbol high low =>
      calc step s = execSymbol high low s := hstep _ hf
        _ = _ := besideBlock_named s _ hn
    | wait l n =>
      obtain ⟨_, _, _, hfits⟩ := callNow_cases s _ hc
      simp only [callFits, Bool.and_eq_true, decide_eq_true_eq] at hfits
      obtain ⟨⟨hw, rfl⟩, rfl⟩ := hfits
      exact (hstep _ hf).trans (execWaitForLevel_own s hw)
    | sample n d c =>
      obtain ⟨hs, _⟩ := callNow_cases s _ hc
      calc step s = execSample n d c s := hstep _ hf
        _ = besideBlock s _ := execSample_no_session n d c s hs
        _ = _ := besideBlock_named s _ hn

/-- The codes without a name are the reserved ones (R80). -/
theorem reserved_of_not_named {x : St} (h : stNamed x = false) : x = .reserved13 ∨ x = .reserved14 ∨ x = .reserved15 := by
  cases x <;> simp [stNamed, stInstr, Instr.notReserved] at h ⊢

/-- A step in a reserved state, without `rst`, is refused (R80, U2). -/
theorem step_reserved (s : State) (hl : s.live = true) (hr : s.ports.rst = false) (hn : stNamed s.regs.st = false) :
    step s = .refused (.reservedState (stCode s.regs.st)) := by
  have hc : s.callNow = none := by simp [State.callNow, hn]
  rw [step_fetched s _ hl hr (fetch_microstep s hc)]
  rcases reserved_of_not_named hn with h | h | h <;> rw [h] <;> rfl

/-- A step in a named state, without `rst`, gives the registers the block's tick, whatever call is pending (R60, R140). -/
theorem step_regs (s : State) (hl : s.live = true) (hr : s.ports.rst = false) (hn : stNamed s.regs.st = true) :
    ∃ t, step s = .next t ∧ t.regs = blockTick s.cfg.toParams s.ports s.regs ∧ StreamElapsed s t := by
  obtain ⟨hregs, hcfg, hlive, henv, htick⟩ :=
    besideTick_block s (finishTick s (blockTick s.cfg.toParams s.ports s.regs))
  exact ⟨_, step_named s hl hr hn, hregs, hcfg, hlive, henv, htick⟩

/-! ## What a step reads of its inputs (R31) -/

/-- A busy block's tick reads the samples alone (R31). -/
theorem blockTick_busy (p : Params) (i j : Input) (r : Regs) (hst : r.st ≠ .idle) (hsmp : i.smp = j.smp) :
    blockTick p i r = blockTick p j r := by
  cases hw : isWait r.st with
  | true => rw [blockTick_wait p i r hw, blockTick_wait p j r hw, hsmp]
  | false =>
    unfold blockTick
    rw [hw]
    cases hs : r.st with
    | idle => exact absurd hs hst
    | _ => rfl

/-- The host agent looks at `stop`, of all that an input holds, and at that only in a session (log entry 9). -/
theorem host_input_congr (s : State) (i j : Input) (rest : List Input) (hstop : s.session ≠ none → i.stop = j.stop) :
    State.host { s with env := i :: rest } = State.host { s with env := j :: rest } := by
  cases hs : s.session with
  | none => simp [State.host]
  | some ss =>
    have h : i.stop = j.stop := hstop (by simp [hs])
    simp [State.host, State.streamAt, h]

/-- The end of a tick depends on this tick's input through the host agent's move alone. -/
theorem finishTick_input_congr (s : State) (i j : Input) (rest : List Input) (r : Regs)
    (hstop : s.session ≠ none → i.stop = j.stop) :
    finishTick { s with env := i :: rest } r = finishTick { s with env := j :: rest } r := by
  simp [finishTick, host_input_congr s i j rest hstop]

/-- A listed input gives `rst` and the samples, session or not. -/
theorem ports_listed (s : State) (i : Input) (rest : List Input) :
    (State.ports { s with env := i :: rest }).rst = i.rst ∧ (State.ports { s with env := i :: rest }).smp = i.smp :=
  ports_stream { s with env := i :: rest }

/-- What runs beside the tick looks at the samples only, and at those only in a wait state. -/
theorem besideTick_input_congr (s t : State) (i j : Input) (rest : List Input)
    (hsmp : isWait s.regs.st = true → i.smp = j.smp) :
    State.besideTick { s with env := i :: rest } t = State.besideTick { s with env := j :: rest } t := by
  have hports := fun i => (ports_listed s i rest).2
  have hcall (i : Input) : State.callNow { s with env := i :: rest } = s.callNow := rfl
  simp only [State.besideTick, hcall, hports]
  cases hc : s.callNow with
  | none => rfl
  | some c =>
    cases c with
    | wait l n =>
      obtain ⟨_, _, _, hfits⟩ := callNow_cases s _ hc
      simp only [callFits, Bool.and_eq_true] at hfits
      obtain ⟨⟨hw, _⟩, _⟩ := hfits
      simp only [hsmp hw]
    | frame w => rfl
    | symbol high low => rfl
    | sample n d c => rfl

/-- Two inputs with the same `rst` and, in a session, the same `stop` give the same step if the block makes the same tick of
them and, in a wait state, they show the same samples. -/
theorem step_input_congr (s : State) (i j : Input) (rest : List Input) (hrst : i.rst = j.rst)
    (hstop : s.session ≠ none → i.stop = j.stop)
    (htick : i.rst = false → blockTick s.cfg.toParams (State.ports { s with env := i :: rest }) s.regs =
      blockTick s.cfg.toParams (State.ports { s with env := j :: rest }) s.regs)
    (hsmp : i.rst = false → isWait s.regs.st = true → i.smp = j.smp) :
    step { s with env := i :: rest } = step { s with env := j :: rest } := by
  have hports := fun i => (ports_listed s i rest).1
  have hfinish := fun r => finishTick_input_congr s i j rest r hstop
  cases hr : i.rst with
  | true =>
    have hreset : resetTick { s with env := i :: rest } = resetTick { s with env := j :: rest } := by
      simp only [resetTick, hfinish]
    rw [step_rst _ ((hports i).trans hr), step_rst _ ((hports j).trans (hrst.symm.trans hr)), hreset]
  | false =>
    have hri := (hports i).trans hr
    have hrj := (hports j).trans (hrst.symm.trans hr)
    rcases Bool.eq_false_or_eq_true s.live with hl | hl
    · rcases Bool.eq_false_or_eq_true (stNamed s.regs.st) with hn | hn
      · rw [step_named { s with env := i :: rest } hl hri hn, step_named { s with env := j :: rest } hl hrj hn]
        simp only [htick hr, hfinish, besideTick_input_congr s _ i j rest (hsmp hr)]
      · rw [step_reserved { s with env := i :: rest } hl hri hn, step_reserved { s with env := j :: rest } hl hrj hn]
    · rw [step_not_live { s with env := i :: rest } hl hri, step_not_live { s with env := j :: rest } hl hrj]

/-! ## Runs -/

theorem after_zero (s : State) : after 0 s = some s := rfl

/-- A run and then a step. -/
theorem after_succ {n : Nat} {s t u : State} (h : after n s = some t) (hs : step t = .next u) :
    after (n + 1) s = some u := by
  induction n generalizing s with
  | zero =>
    obtain rfl := Option.some.inj h
    simp [after, hs]
  | succ n ih =>
    cases hfirst : step s with
    | next r =>
      have hrest : after n r = some t := by simpa [after, hfirst] using h
      simpa [after, hfirst] using ih hrest
    | fault r => simp [after, hfirst] at h
    | refused r => simp [after, hfirst] at h

/-- After `n` ticks without `rst` the constants stand and the stream has moved on by `n` ticks. -/
def RunElapsed (n : Nat) (s t : State) : Prop :=
  t.cfg = s.cfg ∧ t.live = s.live ∧ ∀ k, t.streamAt k = s.streamAt (n + k)

theorem runElapsed_zero (s : State) : RunElapsed 0 s s := ⟨rfl, rfl, fun k => by rw [Nat.zero_add]⟩

theorem RunElapsed.step {n : Nat} {s t u : State} (h : RunElapsed n s t) (hs : StreamElapsed t u) :
    RunElapsed (n + 1) s u := by
  obtain ⟨hcfg, hlive, hstream⟩ := h
  obtain ⟨hcfg', hlive', henv, htick⟩ := hs
  refine ⟨hcfg'.trans hcfg, hlive'.trans hlive, fun k => ?_⟩
  rw [streamAt_tail t u k henv htick, hstream]
  congr 1
  omega

/-- A run through busy states without `rst` takes the registers through the block's ticks: if `f` follows them, the registers
are `f k` after `k` steps. -/
theorem after_busy_ticks (s : State) (f : Nat → Regs) (n : Nat) (hl : s.live = true) (hreset : NoReset s n)
    (hstart : s.regs = f 0) (hbusy : ∀ k < n, stNamed (f k).st = true ∧ (f k).st ≠ .idle)
    (htick : ∀ k < n, blockTick s.cfg.toParams (s.streamAt k) (f k) = f (k + 1)) :
    ∀ k ≤ n, ∃ u, after k s = some u ∧ u.regs = f k ∧ RunElapsed k s u := by
  intro k hk
  induction k with
  | zero => exact ⟨s, after_zero s, hstart, runElapsed_zero s⟩
  | succ k ih =>
    obtain ⟨u, hu, hregs, hrun⟩ := ih (by omega)
    have ⟨hcfg, hlive, hstream⟩ := hrun
    obtain ⟨hnamed, hidle⟩ := hbusy k hk
    obtain ⟨hrst, hsmp⟩ := ports_stream u
    rw [hstream 0] at hrst hsmp
    rw [← hregs] at hnamed hidle
    obtain ⟨t, hstep, htregs, helapsed⟩ := step_regs u (hlive.trans hl) (hrst.trans (hreset k hk)) hnamed
    refine ⟨t, after_succ hu hstep, ?_, hrun.step helapsed⟩
    calc t.regs = blockTick u.cfg.toParams u.ports u.regs := htregs
      _ = blockTick u.cfg.toParams (s.streamAt k) u.regs := blockTick_busy _ _ _ _ hidle hsmp
      _ = blockTick s.cfg.toParams (s.streamAt k) (f k) := by rw [hcfg, hregs]
      _ = f (k + 1) := htick k hk

end Sys2Proof.Machine
end

section
/-! PROOFS of the family 41_handshake_fsm.md: the commands in `IDLE` and in a busy block (R121, R122), the driving states (R123
to R125) and the length of the start signal, the handshake waits (R126 to R130) and the two waits of a bit (R133, R134). -/

namespace Sys2Proof.Machine

/-! ## Waits -/

/-- Counting on, on the timer's number: 1023 wraps to 0, as `BitVec.ofNat` does (R22; log entry 13). -/
theorem tmr_add_one (t : Timer) : t + 1 = BitVec.ofNat 10 (t.toNat + 1) := by
  apply BitVec.eq_of_toNat_eq
  simp

/-- A meaning that is WAIT with the descriptor of the state `w` behaves as R108 has it: which of the three cases of the wait a
state is in is decided by `tmr` first and the samples then. -/
theorem waitBehaves_of_waitTick (i : Instr) (w : St) (accepted : State → Regs)
    (hexec : ∀ s, exec i s = waitTick s w (accepted s)) :
    WaitBehaves i (waitTarget w) (fun p => waitTimeout p w) (waitError w) accepted := by
  intro s
  have hcompletes (r : Regs) (h : waitStep s.regs s.ports.smp (waitTarget w) (waitTimeout s.cfg.toParams w) (waitError w)
      (accepted s) = r) : Completes i s r :=
    completes_of_tickTo i s r ((hexec s).trans (congrArg (tickTo s) h))
  obtain ⟨h8, h9⟩ := waitError_timeout w
  rcases waitStep_cases s.regs s.ports.smp (waitTarget w) (waitTimeout s.cfg.toParams w) (waitError w) (accepted s) with
    ⟨hle, h⟩ | ⟨hlt, hu, h⟩ | ⟨hlt, hu, h⟩
  case inl =>
    exact ⟨fun _ => hcompletes _ (h.trans (raiseError_timeout _ _ h8 h9)), fun hlt => absurd hle hlt.not_ge,
      fun hlt => absurd hle hlt.not_ge⟩
  case inr.inl =>
    exact ⟨fun hle => absurd hle hlt.not_ge, fun _ _ => hcompletes _ h,
      fun _ hne => absurd ((unanimous_iff _ _).mp hu) hne⟩
  case inr.inr =>
    refine ⟨fun hle => absurd hle hlt.not_ge, fun _ heq => ?_, fun _ _ => hcompletes _ (tmr_add_one _ ▸ h)⟩
    rw [(unanimous_iff _ _).mpr heq] at hu
    cases hu

/-- The five handshake waits are wait states. -/
theorem isWait_of_handshake {x : St} (h : x ∈ [St.w2RelHigh, .w3AckLow, .w4AckHigh, .w5SbLow, .w6SbHigh]) :
    isWait x = true := by
  revert x
  decide

/-- The line is released in a wait state (R33, R54). -/
theorem sdaOe_of_wait {r : Regs} {w : St} (hst : r.st = w) (hw : isWait w = true) : r.out.sdaOe = false :=
  (releases_line r (hst ▸ hw)).1

/-- Settles O18: each of the five is WAIT with its state's descriptor, and its accept action goes on to the next state. -/
theorem handshakeWaits : Obligations.HandshakeWaits :=
  ⟨rfl, rfl, fun _ h => sdaOe_of_wait rfl (isWait_of_handshake h),
    waitBehaves_of_waitTick .w2RelHigh .w2RelHigh _ fun _ => rfl,
    waitBehaves_of_waitTick .w3AckLow .w3AckLow _ fun _ => rfl,
    waitBehaves_of_waitTick .w4AckHigh .w4AckHigh _ fun _ => rfl,
    waitBehaves_of_waitTick .w5SbLow .w5SbLow _ fun _ => rfl,
    waitBehaves_of_waitTick .w6SbHigh .w6SbHigh _ fun _ => rfl⟩

/-! ## The waits of a bit -/

/-- Shifting a bit in at the right doubles the frame's number and adds the bit; `BitVec.ofNat` drops the bit that leaves
(R24). -/
theorem shiftIn_eq_ofNat (f : Frame) (b : Bool) :
    (f.extractLsb' 0 39 ++ BitVec.ofBool b : Frame) = BitVec.ofNat 40 (2 * f.toNat + if b then 1 else 0) := by
  apply BitVec.eq_of_toNat_eq
  have happend : (f.extractLsb' 0 39 ++ BitVec.ofBool b : Frame).toNat = (f.extractLsb' 0 39).toNat * 2 + b.toNat :=
    BitVec.toNat_concat _ _
  rw [happend, BitVec.extractLsb'_toNat, BitVec.toNat_ofNat]
  cases b <;> simp <;> omega

/-- `B_LO`'s accept action on numbers (R133). -/
theorem captureBit_eq (p : Params) (r : Regs) (e : Nat) :
    captureBit p r e =
      { r with frame := BitVec.ofNat 40 (2 * r.frame.toNat + if p.thBit ≤ e then 1 else 0), tmr := 1, st := .bHi } := by
  have h := shiftIn_eq_ofNat r.frame (bitOfElapsed p e)
  simp only [bitOfElapsed, decide_eq_true_eq] at h
  rw [captureBit, bitOfElapsed, h]

/-- Settles O19: `B_LO` is WAIT with its descriptor and the capture of a bit. -/
theorem bitLowWaitCapturesABit : Obligations.BitLowWaitCapturesABit :=
  ⟨rfl, rfl, rfl, fun _ hst => sdaOe_of_wait hst rfl,
    waitBehaves_of_waitTick .bLo .bLo _ fun s => congrArg (waitTick s .bLo) (captureBit_eq s.cfg.toParams s.regs _)⟩

/-- `B_HI`'s accept action on the count before it: the 40th bit follows a count of 39 (R134). -/
theorem countBit_eq (r : Regs) :
    countBit r = if r.bitcnt.toNat = 39 then { r with bitcnt := 40, tmr := 0, st := .s8Restore }
      else { r with bitcnt := r.bitcnt + 1, tmr := 1, st := .bLo } := by
  rcases countBit_cases r with ⟨hlast, h⟩ | ⟨hmore, h⟩
  · have hcount : r.bitcnt + 1 = 40 := by bv_omega
    rw [h, hcount, if_pos (by omega)]
  · rw [h, if_neg (by omega)]

/-- Settles O20: `B_HI` is WAIT with its descriptor and the count of a bit. -/
theorem bitHighWaitCountsTheBit : Obligations.BitHighWaitCountsTheBit :=
  ⟨rfl, rfl, fun _ hst => sdaOe_of_wait hst rfl,
    waitBehaves_of_waitTick .bHi .bHi _ fun s => congrArg (waitTick s .bHi) (countBit_eq s.regs)⟩

/-! ## The commands -/

/-- In a busy block neither command bit of an input is read, whatever call is pending (R31, R122): a session puts its own in
their place, and without one the block's tick does not look at them. -/
theorem step_busy_command (s : State) (i : Input) (rest : List Input) (a c : Bool) (hst : s.regs.st ≠ .idle) :
    step { s with env := { i with start := a, cold := c } :: rest } = step { s with env := i :: rest } := by
  refine step_input_congr s { i with start := a, cold := c } i rest rfl (fun _ => rfl) (fun _ => ?_) (fun _ _ => rfl)
  exact blockTick_busy _ _ _ _ hst ((ports_listed s _ rest).2.trans (ports_listed s i rest).2.symm)

/-- The `IDLE` tick, for both values of `start` (R121, R122). -/
theorem exec_idle (s : State) :
    exec .idle s = tickTo s (if s.ports.start then acceptCommand s.regs s.ports.cold else s.regs) :=
  congrArg (tickTo s) (runCommand_eq s.regs s.ports)

/-- Settles O9: each meaning ends its tick with the registers it found; for the last clause see `step_busy_command`. -/
theorem nopAndBusyCommandsWriteNothing : Obligations.NopAndBusyCommandsWriteNothing := by
  intro s
  refine ⟨fun c => completes_of_tickTo _ s _ rfl, fun hst hstart => ?idle, fun hst => ?busy,
    fun hst i rest a c => step_busy_command s i rest a c hst⟩
  case idle =>
    have hexec : exec .idle s = tickTo s s.regs := by simp [exec_idle, hstart]
    exact ⟨completes_of_tickTo _ s _ hexec, drives_high s.regs (by simp [hst, isWait]) (by simp [hst])⟩
  case busy =>
    exact ⟨completes_of_tickTo _ s _ (congrArg (tickTo s) (if_neg hst)),
      completes_of_tickTo _ s _ (congrArg (tickTo s) (if_neg hst))⟩

/-- Settles O10: both commands, and the `IDLE` tick that sees `start`, end in `acceptCommand`, which writes all ten registers;
after that the block is busy, so `step_busy_command` applies. -/
theorem readCommandStartsAnAttempt : Obligations.ReadCommandStartsAnAttempt := by
  refine ⟨rfl, rfl, fun s hst => ⟨?warm, ?cold, fun hstart => ?ports, fun t i rest _ hbusy => ?held⟩⟩
  case warm => exact completes_of_tickTo _ s (acceptCommand s.regs false) (congrArg (tickTo s) (if_pos hst))
  case cold => exact completes_of_tickTo _ s (acceptCommand s.regs true) (congrArg (tickTo s) (if_pos hst))
  case ports =>
    have hexec : exec .idle s = tickTo s (acceptCommand s.regs s.ports.cold) := by simp [exec_idle, hstart]
    exact ⟨_, hexec, rfl, rfl⟩
  case held => exact step_busy_command t { i with start := false } rest true i.cold hbusy

/-! ## The driving states -/

/-- The tick in which a timed state ends (R123, R124). -/
theorem timedStep_end {r : Regs} {n : Nat} (x : St) (h : r.tmr.toNat = n - 1) :
    timedStep r n x = { r with tmr := 0, st := x } := if_pos h

/-- A tick in which a timed state goes on (R123, R124). -/
theorem timedStep_stay {r : Regs} {n : Nat} (x : St) (h : r.tmr.toNat ≠ n - 1) :
    timedStep r n x = { r with tmr := r.tmr + 1 } := if_neg h

/-- Settles O14: the two timed states by their two cases each; `S2_RELEASE` goes on at once. -/
theorem drivingStatesCountAndGoOn : Obligations.DrivingStatesCountAndGoOn := by
  refine ⟨rfl, fun s => ⟨fun h => ?s0End, fun h => ?s0Stay, fun h => ?s1End, fun h => ?s1Stay, ?s2, fun hst => ?driven,
    fun hst => sdaOe_of_wait hst rfl⟩⟩
  case s0End => exact completes_of_tickTo _ s _ (congrArg (tickTo s) (timedStep_end _ h))
  case s0Stay => exact completes_of_tickTo _ s _ (congrArg (tickTo s) (timedStep_stay _ h))
  case s1End => exact completes_of_tickTo _ s _ (congrArg (tickTo s) (timedStep_end _ h))
  case s1Stay => exact completes_of_tickTo _ s _ (congrArg (tickTo s) (timedStep_stay _ h))
  case s2 => exact completes_of_tickTo _ s _ rfl
  case driven => exact drives_high s.regs (by simp [hst, isWait]) (by simp [hst])

/-- `S1_START_LOW`'s tick is a timed one (R124). -/
theorem blockTick_startLow (p : Params) (i : Input) (r : Regs) (hst : r.st = .s1StartLow) :
    blockTick p i r = timedStep r p.tStartLow .s2Release := by
  simp [blockTick, hst, isWait]

/-- A timer value below 1024 is held as it is (R22). -/
theorem tmr_ofNat_toNat {k : Nat} (hk : k < 1024) : (BitVec.ofNat 10 k : Timer).toNat = k := by
  simp [Nat.mod_eq_of_lt hk]

/-- The registers `k` ticks after the start signal began. -/
def startSignalRegs (r : Regs) (len k : Nat) : Regs :=
  if k < len then { r with tmr := BitVec.ofNat 10 k } else { r with tmr := 0, st := .s2Release }

theorem startSignalRegs_during {len k : Nat} (r : Regs) (hk : k < len) :
    startSignalRegs r len k = { r with tmr := BitVec.ofNat 10 k } := if_pos hk

theorem startSignalRegs_end (r : Regs) (len : Nat) :
    startSignalRegs r len len = { r with tmr := 0, st := .s2Release } := if_neg (lt_irrefl len)

/-- A tick of the start signal: `tmr` counts on, and at `T_START_LOW − 1` the signal ends (R124). -/
theorem blockTick_startSignal (c : Config) (i : Input) (r : Regs) (k : Nat) (hst : r.st = .s1StartLow)
    (hk : k < c.tStartLow) :
    blockTick c.toParams i (startSignalRegs r c.tStartLow k) = startSignalRegs r c.tStartLow (k + 1) := by
  obtain ⟨_, _, _, hmax, _⟩ := Config.bounds c
  have htmr : (BitVec.ofNat 10 k : Timer).toNat = k := tmr_ofNat_toNat (by omega)
  rw [startSignalRegs_during r hk, blockTick_startLow c.toParams i { r with tmr := BitVec.ofNat 10 k } hst]
  by_cases hlast : k + 1 = c.tStartLow
  · rw [timedStep_end _ (htmr.trans (by omega)), hlast, startSignalRegs_end]
  · have hnext : (BitVec.ofNat 10 k : Timer) + 1 = BitVec.ofNat 10 (k + 1) := by rw [tmr_add_one, htmr]
    rw [timedStep_stay _ (htmr.trans_ne (by omega)), startSignalRegs_during r (by omega)]
    simp only [hnext]

/-- Settles O16: the run follows `startSignalRegs` tick by tick, in `S1_START_LOW` until it ends. -/
theorem startSignalLastsItsTicks : Obligations.StartSignalLastsItsTicks := by
  refine ⟨rfl, rfl, fun s hl hst htmr hreset => ?_⟩
  have hstart : s.regs = startSignalRegs s.regs s.cfg.tStartLow 0 := by
    obtain ⟨_, _, hmin, _⟩ := Config.bounds s.cfg
    have hzero : BitVec.ofNat 10 0 = s.regs.tmr := htmr.symm
    rw [startSignalRegs_during s.regs hmin, hzero]
  have hrun := after_busy_ticks s (startSignalRegs s.regs s.cfg.tStartLow) s.cfg.tStartLow hl hreset hstart
    (fun k hk => by simp [startSignalRegs_during s.regs hk, hst, stNamed, stInstr, Instr.notReserved])
    (fun k hk => blockTick_startSignal s.cfg _ s.regs k hst hk)
  constructor
  case left =>
    intro k hk
    obtain ⟨u, hu, hregs, _⟩ := hrun k hk.le
    rw [startSignalRegs_during s.regs hk] at hregs
    have hust : u.regs.st = .s1StartLow := by rw [hregs]; exact hst
    exact ⟨u, hu, hregs, by simp [hust, isWait], (out_sdaOut_eq_low u.regs).mpr hust⟩
  case right =>
    obtain ⟨u, hu, hregs, _⟩ := hrun _ le_rfl
    exact ⟨u, hu, hregs.trans (startSignalRegs_end _ _)⟩

end Sys2Proof.Machine
end

section
/-! PROOFS of the family 42_frame_decoder.md: what `decode_frame` answers (R152 to R156) and the two readings of the temperature
field (R154). -/

namespace Sys2Proof.Machine

/-! ## The three answers of `decode_frame` (R152, R155, R156) -/

/-- E8 is the answer to a wrong checksum alone, whatever the range test would say (R156). -/
theorem decodeFrame_eq_e8_iff (p : Params) (b0 b1 b2 b3 b4 : Byte) :
    decodeFrame p b0 b1 b2 b3 b4 = .e8 ↔ b4.toNat ≠ sum8 b0 b1 b2 b3 := by
  rcases decodeFrame_cases p b0 b1 b2 b3 b4 with ⟨hsum, hres⟩ | ⟨hsum, _, hres⟩ | ⟨hsum, _, hres⟩
  case inl => exact iff_of_true hres hsum
  case inr.inl => exact iff_of_false (by simp [hres]) (not_not.mpr hsum)
  case inr.inr => exact iff_of_false (by simp [hres]) (not_not.mpr hsum)

/-- An `Ok` carries the two fields of a frame that passes both tests (R153 to R156). -/
theorem decodeFrame_eq_ok_iff (p : Params) (b0 b1 b2 b3 b4 : Byte) (h : Nat) (t : Int) :
    decodeFrame p b0 b1 b2 b3 b4 = .ok h t ↔
      b4.toNat = sum8 b0 b1 b2 b3 ∧ h = humRaw b0 b1 ∧ t = temperatureOf p.signMode (tempRaw b2 b3) ∧
      inRange p h t = true := by
  rcases decodeFrame_cases p b0 b1 b2 b3 b4 with ⟨hsum, hres⟩ | ⟨hsum, hrange, hres⟩ | ⟨hsum, hrange, hres⟩
  case inl => exact iff_of_false (by simp [hres]) fun hok => hsum hok.1
  case inr.inl =>
    rw [hres, FrameResult.ok.injEq]
    constructor
    · rintro ⟨rfl, rfl⟩
      exact ⟨hsum, rfl, rfl, hrange⟩
    · rintro ⟨_, rfl, rfl, _⟩
      exact ⟨rfl, rfl⟩
  case inr.inr =>
    refine iff_of_false (by simp [hres]) ?_
    rintro ⟨_, rfl, rfl, hin⟩
    exact Bool.false_ne_true (hrange.symm.trans hin)

/-- E9 needs a right checksum: the range test is made on such a frame only (R156). -/
theorem decodeFrame_eq_e9_iff (p : Params) (b0 b1 b2 b3 b4 : Byte) :
    decodeFrame p b0 b1 b2 b3 b4 = .e9 ↔
      b4.toNat = sum8 b0 b1 b2 b3 ∧
      ¬ inRange p (humRaw b0 b1) (temperatureOf p.signMode (tempRaw b2 b3)) = true := by
  rcases decodeFrame_cases p b0 b1 b2 b3 b4 with ⟨hsum, hres⟩ | ⟨_, hrange, hres⟩ | ⟨hsum, hrange, hres⟩
  case inl => exact iff_of_false (by simp [hres]) fun he9 => hsum he9.1
  case inr.inl => exact iff_of_false (by simp [hres]) fun he9 => he9.2 hrange
  case inr.inr => exact iff_of_true hres ⟨hsum, by simp [hrange]⟩

/-- Settles O29: the three answers one by one, the range test written out bound by bound. -/
theorem frameHasExactlyOneOutcome : Obligations.FrameHasExactlyOneOutcome := by
  intro p b0 b1 b2 b3 b4
  refine ⟨decodeFrame_eq_e8_iff p b0 b1 b2 b3 b4, fun h t => ?ok, ?e9⟩
  case ok =>
    have hok := decodeFrame_eq_ok_iff p b0 b1 b2 b3 b4 h t
    rwa [inRange_iff] at hok
  case e9 =>
    have he9 := decodeFrame_eq_e9_iff p b0 b1 b2 b3 b4
    rwa [inRange_iff] at he9

/-! ## The temperature field (R154) -/

/-- The default reading is the field's number. -/
@[simp] theorem temperatureOf_unsigned (raw : Nat) : temperatureOf .unsigned raw = raw := rfl

/-- Without the sign bit the sign-magnitude reading is the field's number too. -/
theorem temperatureOf_signMagnitude_of_lt {raw : Nat} (h : raw < 32768) : temperatureOf .signMagnitude raw = raw :=
  if_neg (Nat.not_le.mpr h)

/-- With the sign bit it is the magnitude of the fifteen bits below, negated; minus zero is zero. -/
theorem temperatureOf_signMagnitude_of_le {raw : Nat} (hsign : 32768 ≤ raw) (hraw : raw < 65536) :
    temperatureOf .signMagnitude raw = 32768 - (raw : Int) :=
  calc temperatureOf .signMagnitude raw
      = -((raw % 32768 : Nat) : Int) := if_pos hsign
    _ = 32768 - (raw : Int) := by omega

/-- The sign-magnitude reading of sixteen bits lies within ±32767, so −32768 is none (R154, R161(e)). -/
theorem temperatureOf_signMagnitude_bounds {raw : Nat} (hraw : raw < 65536) :
    -32767 ≤ temperatureOf .signMagnitude raw ∧ temperatureOf .signMagnitude raw ≤ 32767 := by
  rcases Nat.lt_or_ge raw 32768 with hplus | hminus
  · rw [temperatureOf_signMagnitude_of_lt hplus]
    omega
  · rw [temperatureOf_signMagnitude_of_le hminus hraw]
    omega

/-- A field with the top bit set lies above `TEMP_MAX_X10` in the default reading, so its frame gives E9 (R154, R155). -/
theorem standard_tempMax_lt_unsigned {raw : Nat} (hsign : 32768 ≤ raw) :
    Config.standard.tempMax < temperatureOf .unsigned raw := by
  have hmax : Config.standard.tempMax = 800 := rfl
  rw [hmax, temperatureOf_unsigned]
  omega

/-- Settles O30: the two readings, split on the sign bit. -/
theorem temperatureSignModes : Obligations.TemperatureSignModes :=
  ⟨rfl, temperatureOf_signMagnitude_of_le (raw := 0x8000) (by omega) (by omega), fun raw hraw =>
    ⟨temperatureOf_unsigned raw, temperatureOf_signMagnitude_of_lt,
      fun hsign => ⟨temperatureOf_signMagnitude_of_le hsign hraw, standard_tempMax_lt_unsigned hsign⟩,
      temperatureOf_signMagnitude_bounds hraw⟩⟩

end Sys2Proof.Machine
end

section
/-! Reset (70_reset_and_hazards.md R220, R221): what a tick with `rst` leaves in the registers and on the ports. -/

namespace Sys2Proof.Machine

/-- The outputs that follow from R37's table: an idle block, which drives the line HIGH, with every register zero (R221). -/
@[simp] theorem regsReset_out :
    Regs.reset.out = { sdaOe := true, sdaOut := .high, busy := false, done := false, valid := false, err := 0, humX10 := 0,
                       tempX10 := 0 } := rfl

/-- Settles O1: `rst` overrides the state and the other inputs, so its tick leaves `Regs.reset`, of which the ports are a
function. -/
theorem resetTickGivesTheTable : Obligations.ResetTickGivesTheTable := by
  intro s hr
  refine ⟨resetTick s, step_rst s hr, resetTick_regs s, ?outputs⟩
  case outputs => rw [resetTick_regs, regsReset_out]

end Sys2Proof.Machine
end

section
/-! What a tick of the block can do, kind by kind (41_handshake_fsm.md R140), and what it therefore keeps: the invariant of R39,
the constants, the frame and the published reading. -/

namespace Sys2Proof.Machine

/-! ## The tick of each state (R122 to R135, R150) -/

theorem blockTick_idle {p : Params} {i : Input} {r : Regs} (hst : r.st = .idle) :
    blockTick p i r = if i.start then acceptCommand r i.cold else r := by
  rw [← runCommand_eq]
  simp [blockTick, hst, isWait]

theorem blockTick_s0IdleHigh {p : Params} {i : Input} {r : Regs} (hst : r.st = .s0IdleHigh) :
    blockTick p i r = timedStep r p.tIdleUs .s1StartLow := by
  simp [blockTick, hst, isWait]

theorem blockTick_s2Release {p : Params} {i : Input} {r : Regs} (hst : r.st = .s2Release) :
    blockTick p i r = { r with tmr := 0, st := .w2RelHigh } := by
  simp [blockTick, hst, isWait]

/-- With an error pending `S8_RESTORE` ends the attempt (R135). -/
theorem blockTick_s8_failed {p : Params} {i : Input} {r : Regs} (hst : r.st = .s8Restore) (he : r.err ≠ none) :
    blockTick p i r = { r with done := true, st := .idle } := by
  simp [blockTick, hst, isWait, restoreStep, Option.isSome_iff_ne_none.mpr he]

/-- Without one it goes on to the validation (R135). -/
theorem blockTick_s8_good {p : Params} {i : Input} {r : Regs} (hst : r.st = .s8Restore) (he : r.err = none) :
    blockTick p i r = { r with st := .s9Validate } := by
  simp [blockTick, hst, isWait, restoreStep, he]

theorem blockTick_s9Validate {p : Params} {i : Input} {r : Regs} (hst : r.st = .s9Validate) :
    blockTick p i r = publish r (decodeWord p r.frame) := by
  simp [blockTick, hst, isWait]

/-- At its timeout a wait state raises its error without a poll (R108, R203(b), R204). -/
theorem blockTick_timeout {p : Params} {i : Input} {r : Regs} (hw : isWait r.st = true)
    (htime : waitTimeout p r.st ≤ r.tmr.toNat) :
    blockTick p i r = { r with err := some (waitError r.st), tmr := 0, st := .s8Restore } := by
  obtain ⟨h8, h9⟩ := waitError_timeout r.st
  rw [blockTick_wait p i r hw, waitStep, if_pos htime, raiseError_timeout r _ h8 h9]

/-- Before its timeout a wait state accepts a unanimous poll (R108). -/
theorem blockTick_accept {p : Params} {i : Input} {r : Regs} (hw : isWait r.st = true)
    (htime : r.tmr.toNat < waitTimeout p r.st) (hpoll : unanimous i.smp (waitTarget r.st) = true) :
    blockTick p i r = acceptAction p r := by
  rw [blockTick_wait p i r hw, waitStep, if_neg (Nat.not_le.mpr htime), if_pos hpoll]

/-- Before its timeout a wait state counts on at any other poll (R108). -/
theorem blockTick_miss {p : Params} {i : Input} {r : Regs} (hw : isWait r.st = true)
    (htime : r.tmr.toNat < waitTimeout p r.st) (hpoll : ¬ unanimous i.smp (waitTarget r.st) = true) :
    blockTick p i r = { r with tmr := r.tmr + 1 } := by
  rw [blockTick_wait p i r hw, waitStep, if_neg (Nat.not_le.mpr htime), if_neg hpoll]

/-! ## The kinds of ticks -/

/-- The handshake wait that follows another in a chain (R126 to R131). -/
def ChainsTo (r : Regs) (x : St) : Prop :=
  (r.st = .w2RelHigh ∧ x = .w3AckLow) ∨ (r.st = .w3AckLow ∧ x = .w4AckHigh) ∨
  (r.st = .w4AckHigh ∧ r.coldQ = true ∧ x = .w5SbLow) ∨ (r.st = .w4AckHigh ∧ r.coldQ = false ∧ x = .bLo) ∨
  (r.st = .w5SbLow ∧ x = .w6SbHigh) ∨ (r.st = .w6SbHigh ∧ x = .bLo)

/-- The driving state, or first wait, that follows another driving state (R123 to R125). -/
def DrivesTo (r : Regs) (x : St) : Prop :=
  (r.st = .s0IdleHigh ∧ x = .s1StartLow) ∨ (r.st = .s1StartLow ∧ x = .s2Release) ∨ (r.st = .s2Release ∧ x = .w2RelHigh)

/-- A state that counts ticks in `tmr` (R22). -/
def Counts (x : St) : Prop := x = .s0IdleHigh ∨ x = .s1StartLow ∨ isWait x = true

/-- The kinds of ticks of R140, for any registers in a named state: what each writes, and when it happens. -/
inductive TickKind (p : Params) (i : Input) (r : Regs) : Regs → Prop where
  | hold : r.st = .idle → i.start = false → TickKind p i r r
  | command : r.st = .idle → i.start = true → TickKind p i r (acceptCommand r i.cold)
  | count : Counts r.st → r.tmr.toNat ≠ timerLimit p r.st → TickKind p i r { r with tmr := r.tmr + 1 }
  | drive (x : St) : DrivesTo r x → TickKind p i r { r with tmr := 0, st := x }
  | timeout : isWait r.st = true → TickKind p i r { r with err := some (waitError r.st), tmr := 0, st := .s8Restore }
  | chain (x : St) : ChainsTo r x → r.tmr.toNat < waitTimeout p r.st → TickKind p i r (chainTo r x)
  | capture : r.st = .bLo → unanimous i.smp .low = true → r.tmr.toNat < waitTimeout p r.st →
      TickKind p i r (captureBit p r r.tmr.toNat)
  | countBit : r.st = .bHi → r.tmr.toNat < waitTimeout p r.st → TickKind p i r (countBit r)
  | fail : r.st = .s8Restore → r.err ≠ none → TickKind p i r { r with done := true, st := .idle }
  | validate : r.st = .s8Restore → r.err = none → TickKind p i r { r with st := .s9Validate }
  | publish : r.st = .s9Validate → TickKind p i r (publish r (decodeWord p r.frame))

/-- A state in which the tick is a timed step counts or goes on. -/
theorem tickKind_timed {p : Params} {i : Input} {r : Regs} {n : Nat} {x : St} (hcounts : Counts r.st)
    (hlimit : timerLimit p r.st = n - 1) (hnext : DrivesTo r x) : TickKind p i r (timedStep r n x) := by
  rcases timedStep_cases r n x with ⟨_, h⟩ | ⟨hne, h⟩
  · rw [h]
    exact .drive x hnext
  · rw [h]
    exact .count hcounts (hlimit ▸ hne)

/-- In a wait state the timer's limit is the timeout. -/
theorem timerLimit_wait {p : Params} {x : St} (hw : isWait x = true) : timerLimit p x = waitTimeout p x := by
  cases x <;> first | rfl | cases hw

/-- An accepting wait state chains, captures a bit or counts one (R126 to R134). -/
theorem tickKind_accept {p : Params} {i : Input} {r : Regs} (hw : isWait r.st = true)
    (htime : r.tmr.toNat < waitTimeout p r.st) (hpoll : unanimous i.smp (waitTarget r.st) = true) :
    TickKind p i r (acceptAction p r) := by
  unfold acceptAction
  cases hst : r.st <;> rw [hst] at hw hpoll <;> try cases hw
  case w2RelHigh => exact .chain _ (by simp [ChainsTo, hst]) htime
  case w3AckLow => exact .chain _ (by simp [ChainsTo, hst]) htime
  case w4AckHigh => exact .chain _ (by cases hc : r.coldQ <;> simp [ChainsTo, hst, hc]) htime
  case w5SbLow => exact .chain _ (by simp [ChainsTo, hst]) htime
  case w6SbHigh => exact .chain _ (by simp [ChainsTo, hst]) htime
  case bLo => exact .capture hst hpoll htime
  case bHi => exact .countBit hst htime

/-- A wait state times out, accepts or counts on (R108). -/
theorem tickKind_wait {p : Params} {i : Input} {r : Regs} (hw : isWait r.st = true) :
    TickKind p i r (blockTick p i r) := by
  by_cases htime : waitTimeout p r.st ≤ r.tmr.toNat
  · rw [blockTick_timeout hw htime]
    exact .timeout hw
  · by_cases hpoll : unanimous i.smp (waitTarget r.st) = true
    · rw [blockTick_accept hw (by omega) hpoll]
      exact tickKind_accept hw (by omega) hpoll
    · rw [blockTick_miss hw (by omega) hpoll]
      exact .count (.inr (.inr hw)) (by rw [timerLimit_wait hw]; omega)

/-- The named states that are no wait states, listed (R33). -/
theorem named_not_wait {x : St} (hn : stNamed x = true) (hw : isWait x = false) :
    x = .idle ∨ x = .s0IdleHigh ∨ x = .s1StartLow ∨ x = .s2Release ∨ x = .s8Restore ∨ x = .s9Validate := by
  revert hn hw
  cases x <;> decide

/-- Every tick in a named state is of one of the kinds. -/
theorem blockTick_kind (p : Params) (i : Input) (r : Regs) (hn : stNamed r.st = true) :
    TickKind p i r (blockTick p i r) := by
  cases hw : isWait r.st with
  | true => exact tickKind_wait hw
  | false =>
    rcases named_not_wait hn hw with hst | hst | hst | hst | hst | hst
    · rw [blockTick_idle hst]
      cases hs : i.start with
      | false => exact .hold hst hs
      | true => exact .command hst hs
    · rw [blockTick_s0IdleHigh hst]
      exact tickKind_timed (.inl hst) (by rw [hst]; rfl) (.inl ⟨hst, rfl⟩)
    · rw [blockTick_startLow p i r hst]
      exact tickKind_timed (.inr (.inl hst)) (by rw [hst]; rfl) (.inr (.inl ⟨hst, rfl⟩))
    · rw [blockTick_s2Release hst]
      exact .drive _ (.inr (.inr ⟨hst, rfl⟩))
    · by_cases he : r.err = none
      · rw [blockTick_s8_good hst he]
        exact .validate hst he
      · rw [blockTick_s8_failed hst he]
        exact .fail hst he
    · rw [blockTick_s9Validate hst]
      exact .publish hst

/-- Everything a step can do when it answers a next state: reset, or a tick of the block in a named state with a unit call's
answer beside it (R140, R220; log entry 5). -/
theorem step_cases {s t : State} (h : step s = .next t) :
    (s.ports.rst = true ∧ t = resetTick s) ∨
    (s.ports.rst = false ∧ s.live = true ∧ stNamed s.regs.st = true ∧
      t = s.besideTick (finishTick s (blockTick s.cfg.toParams s.ports s.regs))) := by
  rcases step_next_cases s t h with hreset | ⟨hr, hl, _⟩
  · exact .inl hreset
  · rcases Bool.eq_false_or_eq_true (stNamed s.regs.st) with hn | hn
    · rw [step_named s hl hr hn] at h
      exact .inr ⟨hr, hl, hn, (Host.Outcome.next.inj h).symm⟩
    · rw [step_reserved s hl hr hn] at h
      cases h

/-- The same for the registers: R37's values, or the block's tick. -/
theorem step_regs_cases {s t : State} (h : step s = .next t) :
    (s.ports.rst = true ∧ t.regs = Regs.reset) ∨
    (s.ports.rst = false ∧ TickKind s.cfg.toParams s.ports s.regs t.regs) := by
  rcases step_cases h with ⟨hr, rfl⟩ | ⟨hr, _, hn, rfl⟩
  · exact .inl ⟨hr, rfl⟩
  · refine .inr ⟨hr, ?_⟩
    rw [(besideTick_block s _).1]
    exact blockTick_kind _ _ _ hn

/-- Every step moves the stream on and leaves the constants alone. -/
theorem step_stream {s t : State} (h : step s = .next t) :
    t.cfg = s.cfg ∧ t.live = true ∧ t.env = s.env.tail ∧ t.tick = s.tick + 1 := by
  rcases step_cases h with ⟨_, rfl⟩ | ⟨_, hl, _, rfl⟩
  · exact ⟨rfl, rfl, rfl, rfl⟩
  · obtain ⟨_, hcfg, hlive, henv, htick⟩ :=
      besideTick_block s (finishTick s (blockTick s.cfg.toParams s.ports s.regs))
    exact ⟨hcfg, hlive.trans hl, henv, htick⟩

/-- Settles O45: no step writes `cfg`. -/
theorem constantsNeverChange : Obligations.ConstantsNeverChange :=
  fun _ _ h => (step_stream h).1

/-! ## Who writes `frame` and the reading -/

/-- Publishing writes neither the frame nor anything before the outcome. -/
@[simp] theorem publish_frame (r : Regs) (x : FrameResult) : (publish r x).frame = r.frame := by
  cases x <;> rfl

@[simp] theorem publish_st (r : Regs) (x : FrameResult) : (publish r x).st = .idle := by
  cases x <;> rfl

@[simp] theorem publish_done (r : Regs) (x : FrameResult) : (publish r x).done = true := by
  cases x <;> rfl

@[simp] theorem publish_coldQ (r : Regs) (x : FrameResult) : (publish r x).coldQ = r.coldQ := by
  cases x <;> rfl

/-- Counting a bit writes `bitcnt`, `tmr` and `st` alone (R134). -/
theorem countBit_frame (r : Regs) : ∃ n x, countBit r = { r with bitcnt := r.bitcnt + 1, tmr := n, st := x } := by
  rcases countBit_cases r with ⟨_, h⟩ | ⟨_, h⟩ <;> exact ⟨_, _, h⟩

/-- A tick that changes `frame` captures a bit or begins an attempt. -/
theorem TickKind.frame_changed {p : Params} {i : Input} {r r' : Regs} (h : TickKind p i r r') (hne : r'.frame ≠ r.frame) :
    (r.st = .bLo ∧ r'.st = .bHi ∧ i.smp = Triple.all .low) ∨ (r'.frame = 0 ∧ r.st = .idle ∧ i.start = true) := by
  cases h with
  | command hst hs => exact .inr ⟨rfl, hst, hs⟩
  | capture hst hpoll => exact .inl ⟨hst, rfl, (unanimous_iff _ _).mp hpoll⟩
  | countBit hst =>
    obtain ⟨n, x, h⟩ := countBit_frame r
    exact absurd (by rw [h]) hne
  | publish hst => exact absurd (publish_frame _ _) hne
  | _ => exact absurd rfl hne

/-- Settles O46: of the kinds of ticks only a capture and a command write `frame`, and `rst` clears it. -/
theorem frameIsWrittenByBitCaptureOnly : Obligations.FrameIsWrittenByBitCaptureOnly := by
  intro s t h hne
  rcases step_regs_cases h with ⟨hr, hregs⟩ | ⟨_, hkind⟩
  · exact .inr ⟨by rw [hregs]; rfl, .inl hr⟩
  · rcases hkind.frame_changed hne with hcapture | ⟨hzero, hcommand⟩
    · exact .inl hcapture
    · exact .inr ⟨hzero, .inr hcommand⟩

/-- A tick after which `valid` is 1 kept the reading, or published the decoder's `Ok`. -/
theorem TickKind.valid_cases {p : Params} {i : Input} {r r' : Regs} (h : TickKind p i r r') (hv : r'.valid = true) :
    (r.valid = true ∧ r'.humX10 = r.humX10 ∧ r'.tempX10 = r.tempX10) ∨
    (r.st = .s9Validate ∧ ∃ x v, decodeWord p r.frame = .ok x v ∧
      r'.humX10 = BitVec.ofNat 16 x ∧ r'.tempX10 = BitVec.ofInt 16 v) := by
  cases h with
  | command => cases hv
  | countBit =>
    obtain ⟨n, x, h⟩ := countBit_frame r
    rw [h] at hv ⊢
    exact .inl ⟨hv, rfl, rfl⟩
  | publish hst =>
    cases hres : decodeWord p r.frame with
    | ok x v => exact .inr ⟨hst, x, v, rfl, rfl, rfl⟩
    | e8 =>
      rw [hres] at hv
      exact .inl ⟨hv, rfl, rfl⟩
    | e9 =>
      rw [hres] at hv
      exact .inl ⟨hv, rfl, rfl⟩
  | _ => exact .inl ⟨hv, rfl, rfl⟩

/-- Settles O33: `rst` clears `valid`, and of the kinds of ticks only `S9_VALIDATE`'s sets it. -/
theorem noReadingBypassesValidation : Obligations.NoReadingBypassesValidation := by
  intro s t h hv
  rcases step_regs_cases h with ⟨_, hregs⟩ | ⟨_, hkind⟩
  · rw [hregs] at hv
    cases hv
  · exact hkind.valid_cases hv

end Sys2Proof.Machine
end

section
/-! PROOFS of the family 10_state.md: the invariant of R39. It holds after reset, every kind of tick keeps it, and the host agent
sleeps on an idle block only. -/

namespace Sys2Proof.Machine

/-! ## Attempts under way -/

/-- The outcome registers of an attempt that has neither failed nor ended: all as the command left them (R121). -/
structure Unfinished (r : Regs) : Prop where
  done : r.done = false
  valid : r.valid = false
  err : r.err = none
  hum : r.humX10 = 0
  temp : r.tempX10 = 0

/-- A busy block shows no outcome (R39(a), R39(b), R39(d)). -/
theorem RegsInv.busy {p : Params} {r : Regs} (hi : RegsInv p r) (hbusy : r.st ≠ .idle) :
    r.done = false ∧ r.valid = false ∧ r.humX10 = 0 ∧ r.tempX10 = 0 := by
  have hdone : r.done = false := Bool.eq_false_iff.mpr fun h => hbusy (hi.done_idle h)
  have hvalid : r.valid = false := Bool.eq_false_iff.mpr fun h => hbusy (hi.valid_outcome h).2.2
  exact ⟨hdone, hvalid, hi.no_partial_result hvalid⟩

/-- In a busy block an error is a timeout, pending in `S8_RESTORE` (R26). -/
theorem RegsInv.busy_error {p : Params} {r : Regs} (hi : RegsInv p r) (hbusy : r.st ≠ .idle) (he : r.err ≠ none) :
    r.st = .s8Restore ∧ r.err ≠ some .e8 ∧ r.err ≠ some .e9 := by
  rcases hi.error_place he with hdone | h
  · exact absurd (hi.done_idle hdone) hbusy
  · exact h

/-- A busy block without a pending error is in an attempt under way. -/
theorem RegsInv.unfinished {p : Params} {r : Regs} (hi : RegsInv p r) (hbusy : r.st ≠ .idle) (he : r.err = none) :
    Unfinished r := by
  obtain ⟨hdone, hvalid, hhum, htemp⟩ := hi.busy hbusy
  exact ⟨hdone, hvalid, he, hhum, htemp⟩

/-- Before `S8_RESTORE` a busy block is in an attempt under way. -/
theorem RegsInv.unfinished_of {p : Params} {r : Regs} (hi : RegsInv p r) (hbusy : r.st ≠ .idle) (h8 : r.st ≠ .s8Restore) :
    Unfinished r :=
  hi.unfinished hbusy (not_not.mp fun he => h8 (hi.busy_error hbusy he).1)

/-- In the two waits of a bit fewer than forty bits are counted (R39(e)). -/
theorem RegsInv.bitcnt_lt {p : Params} {r : Regs} (hi : RegsInv p r) (hst : r.st = .bLo ∨ r.st = .bHi) :
    r.bitcnt.toNat < 40 := by
  have hne : r.bitcnt.toNat ≠ 40 := by
    intro hfull
    rcases hi.bitcnt_full hfull with h | h | h <;> simp [h] at hst
  have := hi.bitcnt_bound
  simp only [nBits] at this
  omega

/-- What the invariant asks of an attempt under way. -/
theorem RegsInv.of_unfinished {p : Params} {r : Regs} (h : Unfinished r) (hn : stNamed r.st = true)
    (htmr : r.tmr.toNat ≤ timerLimit p r.st) (hbits : r.bitcnt.toNat ≤ 40)
    (hfull : r.bitcnt.toNat = 40 → r.st = .s8Restore ∨ r.st = .s9Validate)
    (hcold : r.st = .w5SbLow ∨ r.st = .w6SbHigh → r.coldQ = true)
    (hend : r.st = .s9Validate ∨ r.st = .s8Restore → r.bitcnt.toNat = 40)
    (hnothing : beforeCapture r.st = true → r.bitcnt = 0 ∧ r.frame = 0) : RegsInv p r where
  valid_outcome hv := by simp [h.valid] at hv
  done_idle hd := by simp [h.done] at hd
  failed_has_code hd := by simp [h.done] at hd
  no_partial_result _ := ⟨h.hum, h.temp⟩
  bitcnt_bound := hbits
  bitcnt_full hb := (hfull hb).imp_right .inl
  start_bit_cold := hcold
  st_named := hn
  timer_bound := htmr
  error_place he := absurd h.err he
  validate_full hst := hend (hst.imp_right And.left)
  nothing_captured := hnothing
  reading_decoded hv := by simp [h.valid] at hv
  e8_decoded he := by simp [h.err] at he
  e9_decoded he := by simp [h.err] at he

/-- The registers after reset obey the invariant (R37). -/
theorem regsInv_reset (p : Params) : RegsInv p Regs.reset where
  valid_outcome hv := by cases hv
  done_idle hd := by cases hd
  failed_has_code hd := by cases hd
  no_partial_result _ := ⟨rfl, rfl⟩
  bitcnt_bound := by decide
  bitcnt_full hb := by cases hb
  start_bit_cold hst := by simp [Regs.reset] at hst
  st_named := rfl
  timer_bound := Nat.zero_le _
  error_place he := absurd rfl he
  validate_full hst := by simp [Regs.reset] at hst
  nothing_captured hst := by cases hst
  reading_decoded hv := by cases hv
  e8_decoded he := by cases he
  e9_decoded he := by cases he

/-! ## Every kind of tick keeps the invariant -/

/-- A command clears everything of the attempt before (R121). -/
theorem regsInv_acceptCommand (p : Params) (r : Regs) (c : Bool) : RegsInv p (acceptCommand r c) :=
  .of_unfinished ⟨rfl, rfl, rfl, rfl, rfl⟩ rfl (Nat.zero_le _) (Nat.zero_le _) (fun h => by cases h)
    (fun h => by simp at h) (fun h => by simp at h) (fun _ => ⟨rfl, rfl⟩)

/-- Every limit of the timer fits its ten bits (R22, R234). -/
theorem timerLimit_le {c : Config} {x : St} (hcounts : Counts x) : timerLimit c.toParams x ≤ 1023 := by
  have hb := Config.bounds c
  rcases hcounts with rfl | rfl | hw
  · simp only [timerLimit]
    omega
  · simp only [timerLimit]
    omega
  · rw [timerLimit_wait hw]
    exact (waitTimeout_bounds c x hw).2

/-- Counting on below the limit of the state (R22). -/
theorem RegsInv.count {c : Config} {r : Regs} (hi : RegsInv c.toParams r) (hcounts : Counts r.st)
    (hne : r.tmr.toNat ≠ timerLimit c.toParams r.st) : RegsInv c.toParams { r with tmr := r.tmr + 1 } := by
  have hlimit := timerLimit_le (c := c) hcounts
  have hbound := hi.timer_bound
  exact { hi with
    timer_bound := by
      change (r.tmr + 1).toNat ≤ timerLimit c.toParams r.st
      rw [tmr_succ _ (by omega)]
      omega }

/-- Going on to a state before the capture, from one before it (R123 to R130). -/
theorem RegsInv.goTo {p : Params} {r : Regs} (hi : RegsInv p r) {x : St} {n : Timer} (hst : beforeCapture r.st = true)
    (hx : beforeCapture x = true ∨ x = .bLo) (htmr : n.toNat ≤ timerLimit p x)
    (hcold : x = .w5SbLow ∨ x = .w6SbHigh → r.coldQ = true) : RegsInv p { r with tmr := n, st := x } := by
  obtain ⟨hbits, hframe⟩ := hi.nothing_captured hst
  have hstart : r.st ≠ .idle ∧ r.st ≠ .s8Restore := by
    constructor <;> intro h <;> rw [h] at hst <;> cases hst
  have hnext : x ≠ .s9Validate ∧ x ≠ .s8Restore ∧ stNamed x = true := by
    revert hx
    cases x <;> decide
  obtain ⟨h9, h8, hn⟩ := hnext
  have h := hi.unfinished_of hstart.1 hstart.2
  exact .of_unfinished { h with } hn htmr (by simp [hbits]) (fun hb => by simp [hbits] at hb) hcold
    (fun hst => by rcases hst with hst | hst <;> contradiction) (fun _ => ⟨hbits, hframe⟩)

/-- A driving state goes on with the timer cleared. -/
theorem RegsInv.drive {p : Params} {r : Regs} (hi : RegsInv p r) {x : St} (h : DrivesTo r x) :
    RegsInv p { r with tmr := 0, st := x } := by
  have hplaces : beforeCapture r.st = true ∧ beforeCapture x = true ∧ x ≠ .w5SbLow ∧ x ≠ .w6SbHigh := by
    rcases h with ⟨hst, rfl⟩ | ⟨hst, rfl⟩ | ⟨hst, rfl⟩ <;> simp [hst, beforeCapture]
  obtain ⟨hst, hx, h5, h6⟩ := hplaces
  exact hi.goTo hst (.inl hx) (Nat.zero_le _) fun h => by rcases h with h | h <;> contradiction

/-- A clock that starts at an accept stands at 1, below every timeout (R107(b), R234). -/
theorem one_le_timerLimit (c : Config) {x : St} (hw : isWait x = true) : (1 : Timer).toNat ≤ timerLimit c.toParams x := by
  obtain ⟨hmin, _⟩ := waitTimeout_bounds c x hw
  rw [timerLimit_wait hw]
  exact le_trans (by decide) hmin

/-- A handshake wait chains to the next, whose clock is then at 1, below every timeout (R107, R234). -/
theorem RegsInv.chain {c : Config} {r : Regs} (hi : RegsInv c.toParams r) {x : St} (h : ChainsTo r x) :
    RegsInv c.toParams (chainTo r x) := by
  have hplaces : beforeCapture r.st = true ∧ (beforeCapture x = true ∨ x = .bLo) ∧ isWait x = true := by
    rcases h with ⟨hst, rfl⟩ | ⟨hst, rfl⟩ | ⟨hst, _, rfl⟩ | ⟨hst, _, rfl⟩ | ⟨hst, rfl⟩ | ⟨hst, rfl⟩ <;>
      simp [hst, beforeCapture, isWait]
  obtain ⟨hst, hx, hw⟩ := hplaces
  have hcold : x = .w5SbLow ∨ x = .w6SbHigh → r.coldQ = true := by
    rcases h with ⟨_, rfl⟩ | ⟨_, rfl⟩ | ⟨_, hc, rfl⟩ | ⟨_, _, rfl⟩ | ⟨h5, rfl⟩ | ⟨_, rfl⟩ <;> simp
    · exact hc
    · exact hi.start_bit_cold (.inl h5)
  exact hi.goTo hst hx (one_le_timerLimit c hw) hcold

/-- A timeout leaves its code pending in `S8_RESTORE` (R204). -/
theorem RegsInv.timeout {p : Params} {r : Regs} (hi : RegsInv p r) (hw : isWait r.st = true) :
    RegsInv p { r with err := some (waitError r.st), tmr := 0, st := .s8Restore } := by
  have hbusy : r.st ≠ .idle := by
    intro h
    simp [h, isWait] at hw
  obtain ⟨h8, h9⟩ := waitError_timeout r.st
  obtain ⟨hdone, hvalid, hhum, htemp⟩ := hi.busy hbusy
  exact {
    valid_outcome := fun hv => by simp [hvalid] at hv
    done_idle := fun hd => by simp [hdone] at hd
    failed_has_code := fun _ _ => by simp
    no_partial_result := fun _ => ⟨hhum, htemp⟩
    bitcnt_bound := hi.bitcnt_bound
    bitcnt_full := fun _ => .inl rfl
    start_bit_cold := fun h => by simp at h
    st_named := rfl
    timer_bound := Nat.zero_le _
    error_place := fun _ => .inr ⟨rfl, by simpa using h8, by simpa using h9⟩
    validate_full := fun h => by simp at h
    nothing_captured := fun h => by cases h
    reading_decoded := fun hv => by simp [hvalid] at hv
    e8_decoded := fun he => absurd (Option.some.inj he) h8
    e9_decoded := fun he => absurd (Option.some.inj he) h9 }

/-- A captured bit is not counted yet (R133). -/
theorem RegsInv.capture {c : Config} {r : Regs} (hi : RegsInv c.toParams r) (hst : r.st = .bLo) (e : Nat) :
    RegsInv c.toParams (captureBit c.toParams r e) := by
  have hbits := hi.bitcnt_lt (.inl hst)
  have h := hi.unfinished_of (by simp [hst]) (by simp [hst])
  exact .of_unfinished { h with } rfl (one_le_timerLimit c (x := .bHi) rfl) (by simpa using hbits.le)
    (fun hb => absurd hb hbits.ne) (fun h => by simp at h) (fun h => by simp at h) (fun h => by cases h)

/-- A counted bit is followed by the next one, or is the fortieth and ends the capture (R134). -/
theorem RegsInv.countBit {c : Config} {r : Regs} (hi : RegsInv c.toParams r) (hst : r.st = .bHi) :
    RegsInv c.toParams (countBit r) := by
  have hbits := hi.bitcnt_lt (.inr hst)
  have hcount : (r.bitcnt + 1).toNat = r.bitcnt.toNat + 1 := by bv_omega
  have h := hi.unfinished_of (by simp [hst]) (by simp [hst])
  rcases countBit_cases r with ⟨hlast, heq⟩ | ⟨hmore, heq⟩ <;> rw [heq]
  · exact .of_unfinished { h with } rfl (Nat.zero_le _) (hcount.trans hlast).le (fun _ => .inl rfl) (fun h => by simp at h)
      (fun _ => hcount.trans hlast) (fun h => by cases h)
  · exact .of_unfinished { h with } rfl (one_le_timerLimit c (x := .bLo) rfl) (hcount.le.trans hbits)
      (fun hb => absurd (hcount.symm.trans hb) hmore) (fun h => by simp at h) (fun h => by simp at h) (fun h => by cases h)

/-- In `S8_RESTORE` and `S9_VALIDATE` the timer stands at 0. -/
theorem RegsInv.tmr_zero {p : Params} {r : Regs} (hi : RegsInv p r) (hst : r.st = .s8Restore ∨ r.st = .s9Validate) :
    r.tmr.toNat ≤ 0 := by
  have htmr := hi.timer_bound
  rcases hst with hst | hst <;> simpa [hst, timerLimit, waitTimeout] using htmr

/-- An attempt ends with an error; E8 and E9 need the decoder's word for it (R135, R136, R150). -/
theorem RegsInv.endWith {p : Params} {r : Regs} (hi : RegsInv p r) (hst : r.st = .s8Restore ∨ r.st = .s9Validate)
    {e : Option ErrName} (he : e ≠ none) (h8 : e = some .e8 → decodeWord p r.frame = .e8)
    (h9 : e = some .e9 → decodeWord p r.frame = .e9) : RegsInv p { r with err := e, done := true, st := .idle } := by
  have hbusy : r.st ≠ .idle := by rcases hst with hst | hst <;> simp [hst]
  obtain ⟨_, hvalid, _⟩ := hi.busy hbusy
  exact { hi with
    valid_outcome := fun hv => by cases hvalid.symm.trans hv
    done_idle := fun _ => rfl
    failed_has_code := fun _ _ => he
    bitcnt_full := fun _ => .inr (.inr rfl)
    start_bit_cold := fun h => by simp at h
    st_named := rfl
    timer_bound := hi.tmr_zero hst
    error_place := fun _ => .inl rfl
    validate_full := fun h => by simp at h
    nothing_captured := fun h => by cases h
    e8_decoded := h8
    e9_decoded := h9 }

/-- A complete frame goes on to its validation (R135). -/
theorem RegsInv.validate {p : Params} {r : Regs} (hi : RegsInv p r) (hst : r.st = .s8Restore) (he : r.err = none) :
    RegsInv p { r with st := .s9Validate } := by
  have hbits := hi.validate_full (.inr ⟨hst, he⟩)
  have h := hi.unfinished (by simp [hst]) he
  exact .of_unfinished { h with } rfl (hi.tmr_zero (.inl hst)) hbits.le (fun _ => .inr rfl) (fun h => by simp at h)
    (fun _ => hbits) (fun h => by cases h)

/-- The humidity field of a frame fits sixteen bits, so publishing does not truncate it (R29). -/
theorem humRaw_lt (b0 b1 : Byte) : humRaw b0 b1 < 65536 := by
  have h0 := b0.isLt
  have h1 := b1.isLt
  unfold humRaw
  omega

/-- An `Ok` of the decoder carries a humidity of sixteen bits. -/
theorem decodeWord_ok_lt {p : Params} {f : Frame} {h : Nat} {t : Int} (hres : decodeWord p f = .ok h t) : h < 65536 := by
  obtain ⟨_, rfl, _⟩ := (decodeFrame_eq_ok_iff _ _ _ _ _ _ _ _).mp hres
  exact humRaw_lt _ _

/-- Validation ends the attempt with the decoder's outcome (R150). -/
theorem RegsInv.publish {p : Params} {r : Regs} (hi : RegsInv p r) (hst : r.st = .s9Validate) :
    RegsInv p (publish r (decodeWord p r.frame)) := by
  have hun := hi.unfinished_of (by simp [hst]) (by simp [hst])
  cases hres : decodeWord p r.frame with
  | ok h t =>
    exact {
      valid_outcome := fun _ => ⟨rfl, hun.err, rfl⟩
      done_idle := fun _ => rfl
      failed_has_code := fun _ hv => by cases hv
      no_partial_result := fun hv => by cases hv
      bitcnt_bound := hi.bitcnt_bound
      bitcnt_full := fun _ => .inr (.inr rfl)
      start_bit_cold := fun h => by simp at h
      st_named := rfl
      timer_bound := hi.tmr_zero (.inr hst)
      error_place := fun _ => .inl rfl
      validate_full := fun h => by simp at h
      nothing_captured := fun h => by cases h
      reading_decoded := fun _ => ⟨h, t, hres, Nat.mod_eq_of_lt (decodeWord_ok_lt hres), rfl⟩
      e8_decoded := fun he => by cases hun.err.symm.trans he
      e9_decoded := fun he => by cases hun.err.symm.trans he }
  | e8 => exact hi.endWith (.inr hst) (by simp) (fun _ => hres) (fun he => by cases he)
  | e9 => exact hi.endWith (.inr hst) (by simp) (fun he => by cases he) (fun _ => hres)

/-- Every kind of tick keeps the invariant of the registers. -/
theorem TickKind.keeps_regsInv {c : Config} {i : Input} {r r' : Regs} (h : TickKind c.toParams i r r')
    (hi : RegsInv c.toParams r) : RegsInv c.toParams r' := by
  cases h with
  | hold => exact hi
  | command => exact regsInv_acceptCommand _ _ _
  | count hcounts hne => exact hi.count hcounts hne
  | drive x hx => exact hi.drive hx
  | timeout hw => exact hi.timeout hw
  | chain x hx => exact hi.chain hx
  | capture hst => exact hi.capture hst _
  | countBit hst => exact hi.countBit hst
  | fail hst he => exact hi.endWith (.inl hst) he hi.e8_decoded hi.e9_decoded
  | validate hst he => exact hi.validate hst he
  | publish hst => exact hi.publish hst

/-- Every step keeps the invariant of the registers. -/
theorem step_keeps_regsInv {s t : State} (hi : RegsInv s.cfg.toParams s.regs) (h : step s = .next t) :
    RegsInv t.cfg.toParams t.regs := by
  rw [(step_stream h).1]
  rcases step_regs_cases h with ⟨_, hregs⟩ | ⟨_, hkind⟩
  · rw [hregs]
    exact regsInv_reset _
  · exact hkind.keeps_regsInv hi

/-! ## The host agent sleeps on an idle block (R173) -/

/-- A request goes on to itself or to the wait for `done` (R171). -/
theorem hostRequest_next {ss ss' : Session} {c : Bool} {o : Output} (h : (hostRequest ss c o).next = some ss') :
    ss'.phase = .request c ∨ ss'.phase = .awaitDone c := by
  rcases hostRequest_cases ss c o with ⟨_, heq⟩ | ⟨_, _, _, heq, _⟩ <;> rw [heq] at h <;> cases h
  · exact .inl rfl
  · exact .inr rfl

/-- The next warm decode begins with a request (R172(b)). -/
theorem hostNextWarm_next {ss ss' : Session} {o : Output} (h : (hostNextWarm ss o).next = some ss') :
    ss'.phase = .request false ∨ ss'.phase = .awaitDone false := by
  rcases hostNextWarm_cases ss o with ⟨_, heq⟩ | ⟨n, _, heq⟩ <;> rw [heq] at h
  · cases h
  · exact hostRequest_next h

/-- A delay that goes on presents nothing (R173). -/
theorem hostPause_sleeps {ss ss' : Session} {n k : Nat} {o : Output} (h : (hostPause ss n o).next = some ss')
    (hp : ss'.phase = .pause k) : (hostPause ss n o).start = false := by
  cases n with
  | zero => rcases hostNextWarm_next h with h | h <;> cases hp.symm.trans h
  | succ m => rfl

/-- What the host does with an outcome, where it does not return, is what it does in a delay of `retry_delay` ticks (R172). -/
theorem hostOutcome_next {ss ss' : Session} {c : Bool} {o : Output} (h : (hostOutcome ss c o).next = some ss') :
    hostOutcome ss c o = hostPause ss ss.retryDelay o := by
  unfold hostOutcome at h ⊢
  split at h
  · rw [if_pos ‹_›]
  · split at h
    · cases h
    · split at h
      · cases h
      · simp [*]

/-- A host that is asleep after a tick presented nothing in it, and saw `done = 1` or was asleep before (R173). -/
theorem hostPlan_sleeps {ss ss' : Session} {k : Nat} {o : Output} (h : (hostPlan ss o).next = some ss')
    (hp : ss'.phase = .pause k) :
    (hostPlan ss o).start = false ∧ (o.done = true ∨ ∃ n, ss.phase = .pause n) := by
  unfold hostPlan at h ⊢
  cases hph : ss.phase with
  | request c =>
    rw [hph] at h
    rcases hostRequest_next h with h | h <;> cases hp.symm.trans h
  | awaitDone c =>
    simp only [hph] at h ⊢
    cases hd : o.done with
    | false =>
      simp only [hd] at h
      cases h
      cases hp
    | true =>
      simp only [hd, if_true] at h ⊢
      have heq := hostOutcome_next h
      rw [heq] at h ⊢
      exact ⟨hostPause_sleeps h hp, .inl trivial⟩
  | pause n =>
    simp only [hph] at h ⊢
    exact ⟨hostPause_sleeps h hp, .inr ⟨n, rfl⟩⟩
  | finish =>
    simp only [hph] at h
    rcases hostFinish_cases ss o with ⟨_, heq⟩ | ⟨_, heq⟩ <;> rw [heq] at h <;> cases h
    cases hp

/-- A host that goes on follows the protocol (R179; log entry 9). -/
theorem hostMove_next {ss ss' : Session} {o : Output} {stop : Bool} (h : (hostMove ss o stop).next = some ss') :
    hostMove ss o stop = hostPlan ss o := by
  rcases hostMove_cases ss o stop with ⟨_, _, _, heq⟩ | heq
  · rw [heq] at h
    cases h
  · exact heq

/-- An idle block with nothing presented keeps its registers (R122). -/
theorem blockTick_idle_hold {p : Params} {i : Input} {r : Regs} (hst : r.st = .idle) (hstart : i.start = false) :
    blockTick p i r = r := by
  simp [blockTick_idle hst, hstart]

/-- The host's session after a tick is what its move leaves, unless a `sample` call has just begun one (log entries 8, 10). -/
theorem besideTick_session (s t : State) :
    (s.besideTick t).session = t.session ∨
    (s.session = none ∧ ∃ m d c, (s.besideTick t).session = some (beginSession m d c)) := by
  unfold State.besideTick
  split
  case h_5 n d c hc => exact .inr ⟨(callNow_cases s _ hc).1, _, _, _, rfl⟩
  all_goals exact .inl (by simp)

/-- No session begins with a delay (R172). -/
theorem beginSession_phase (m d : Nat) (c : Bool) (n : Nat) : (beginSession m d c).phase ≠ .pause n := by
  rcases beginSession_cases m d c with ⟨_, h⟩ | ⟨_, _, h⟩ | ⟨_, _, _, h⟩ <;> rw [h] <;> simp

/-- The move of the host in a session. -/
theorem host_session {s : State} {ss : Session} (hs : s.session = some ss) :
    s.host = some (hostMove ss s.regs.out (s.streamAt 0).stop) := by
  simp [State.host, hs]

/-- A block on which a host is asleep after the host's move of this tick is idle, and nothing was presented to it. -/
theorem idle_of_sleeps {s : State} {ss' : Session} {n : Nat} (hi : RegsInv s.cfg.toParams s.regs) (hsess : sessionInv s)
    (h : s.host.bind HostMove.next = some ss') (hp : ss'.phase = .pause n) : s.regs.st = .idle ∧ s.ports.start = false := by
  cases hs : s.session with
  | none => simp [State.host, hs] at h
  | some ss =>
    obtain ⟨hstart, _⟩ := ports_session s ss hs
    simp only [host_session hs, Option.bind_some] at h
    have hplan := hostMove_next h
    rw [hplan] at h hstart
    obtain ⟨hquiet, hwas⟩ := hostPlan_sleeps h hp
    refine ⟨?_, hstart.trans hquiet⟩
    rcases hwas with hd | ⟨k, hk⟩
    · exact hi.done_idle hd
    · exact hsess ss k hs hk

/-- A step keeps a sleeping host on an idle block. -/
theorem step_keeps_sessionInv {s t : State} (hi : RegsInv s.cfg.toParams s.regs) (hsess : sessionInv s)
    (h : step s = .next t) : sessionInv t := by
  intro ss' n hss' hp
  rcases step_cases h with ⟨_, rfl⟩ | ⟨_, _, _, rfl⟩
  · rfl
  · rw [(besideTick_block s _).1]
    rcases besideTick_session s (finishTick s (blockTick s.cfg.toParams s.ports s.regs)) with heq | ⟨_, m, d, c, heq⟩
    · obtain ⟨hidle, hquiet⟩ := idle_of_sleeps hi hsess (heq.symm.trans hss') hp
      rw [finishTick_regs, blockTick_idle_hold hidle hquiet]
      exact hidle
    · obtain rfl := Option.some.inj (heq.symm.trans hss')
      exact absurd hp (beginSession_phase m d c n)

/-- Settles O42: the registers by the kinds of ticks, the host by what it presents; `rst` restores the registers of R37, and
before the first reset only `rst` makes a step. -/
theorem stepKeepsTheInvariant : Obligations.StepKeepsTheInvariant := by
  intro s t hinv h _
  rcases step_cases h with ⟨_, rfl⟩ | ⟨_, hl, _⟩
  · exact ⟨regsInv_reset _, fun _ _ _ _ => rfl⟩
  · obtain ⟨hi, hsess⟩ := hinv hl
    exact ⟨step_keeps_regsInv hi h, step_keeps_sessionInv hi hsess h⟩

/-! ## What the invariant says (R39) -/

/-- Settles O41: the registers of R37, and no session. -/
theorem resetStateObeysTheInvariant : Obligations.ResetStateObeysTheInvariant :=
  ⟨fun _ => ⟨regsInv_reset _, fun _ _ _ _ => rfl⟩, rfl⟩

/-- With the document's constants the limits of `tmr` are 999 at most. -/
theorem standard_timerLimit (x : St) : timerLimit Config.standard.toParams x ≤ 999 := by
  cases x <;> decide

/-- Settles O43: `tmr` stays within the limit of its state. -/
theorem timerStaysBelowThousand : Obligations.TimerStaysBelowThousand :=
  fun r hi => hi.timer_bound.trans (standard_timerLimit r.st)

/-- Settles O44: under the invariant `st` is named, so without `rst` the block has its tick, and with `rst` the reset. -/
theorem everyTickHasANextState : Obligations.EveryTickHasANextState := by
  intro s hl hinv
  obtain ⟨hi, _⟩ := hinv hl
  have hnext : ∃ t, step s = .next t := by
    cases hr : s.ports.rst with
    | true => exact ⟨_, step_rst s hr⟩
    | false => exact ⟨_, step_named s hl hr hi.st_named⟩
  obtain ⟨t, h⟩ := hnext
  obtain ⟨_, hlive, _, htick⟩ := step_stream h
  exact ⟨t, h, hlive, htick⟩

/-- The numbers of the timeouts are 1 to 7 (R73). -/
theorem errNumber_timeout {k : ErrName} (h8 : k ≠ .e8) (h9 : k ≠ .e9) : errNumber k ≤ 7 := by
  cases k with
  | e8 => exact absurd rfl h8
  | e9 => exact absurd rfl h9
  | _ => simp [errNumber]

/-- Settles O49: while busy an error is pending in `S8_RESTORE` only, and is a timeout. -/
theorem busyStatusReadsZero : Obligations.BusyStatusReadsZero := by
  intro p r hi hbusy
  have hst : r.st ≠ .idle := by simpa using hbusy
  obtain ⟨hdone, hvalid, hhum, htemp⟩ := hi.busy hst
  refine ⟨hdone, hvalid, hhum, htemp, fun hcode => ?_⟩
  cases he : r.err with
  | none => exact absurd (by simp [he]) hcode
  | some k =>
    obtain ⟨h8, hne8, hne9⟩ := hi.busy_error hst (by simp [he])
    have htimeout := errNumber_timeout (k := k) (by simpa [he] using hne8) (by simpa [he] using hne9)
    simpa [he, h8] using ⟨(errNumber_bounds k).1, htimeout⟩

/-- A published reading passed the range test, and its registers hold it (R155, R159). -/
theorem RegsInv.reading_inRange {p : Params} {r : Regs} (hi : RegsInv p r) (hv : r.valid = true) :
    ∃ raw : Nat, raw < 65536 ∧ inRange p r.humX10.toNat (temperatureOf p.signMode raw) = true ∧
      r.tempX10 = BitVec.ofInt 16 (temperatureOf p.signMode raw) := by
  obtain ⟨h, t, hres, rfl, htemp⟩ := hi.reading_decoded hv
  obtain ⟨_, _, rfl, hrange⟩ := (decodeFrame_eq_ok_iff _ _ _ _ _ _ _ _).mp hres
  exact ⟨_, humRaw_lt _ _, hrange, htemp⟩

/-- A temperature within the document's bounds is read back from its two's complement (R30). -/
theorem toInt_tenths {t : Int} (hmin : -400 ≤ t) (hmax : t ≤ 800) : (BitVec.ofInt 16 t).toInt = t := by
  rw [BitVec.toInt_ofInt, Int.bmod_eq_of_le] <;> omega

/-- Settles O34: the range test's bounds are the document's; the default reading of the field gives no negative number. -/
theorem validReadingsAreInRange : Obligations.ValidReadingsAreInRange := by
  intro r hv
  refine ⟨fun hi => ?unsigned, fun hi => ?signed⟩
  case unsigned =>
    obtain ⟨raw, _, hrange, htemp⟩ := hi.reading_inRange hv
    obtain ⟨_, hhum, hmin, hmax⟩ := (inRange_iff _ _ _).mp hrange
    rw [htemp, toInt_tenths hmin hmax]
    exact ⟨Int.ofNat_le.mp hhum, Int.natCast_nonneg raw, hmax⟩
  case signed =>
    obtain ⟨raw, _, hrange, htemp⟩ := hi.reading_inRange hv
    obtain ⟨_, hhum, hmin, hmax⟩ := (inRange_iff _ _ _).mp hrange
    rw [htemp, toInt_tenths hmin hmax]
    exact ⟨Int.ofNat_le.mp hhum, hmin, hmax⟩

/-! ## The reserved codes (R80) -/

/-- FRAME40 is `decode_frame` of its fields beside the block's tick (R158). -/
theorem exec_frame40 (hum temp : BitVec 16) (cksum : BitVec 8) (s : State) :
    exec (.frame40 hum temp cksum) s =
      besideBlock s fun t => t.answer (.decoded (decodeWord s.cfg.toParams (hum ++ temp ++ cksum))) := rfl

/-- SYMBOL is its classification beside the block's tick (R75). -/
theorem exec_symbol (high low : Nat) (s : State) :
    exec (.symbol high low) s = besideBlock s fun t => t.answer (.symbol (symbolResult s.cfg.toParams high low)) := rfl

/-- `sample` without a session begins one beside the block's tick (R172). -/
theorem exec_sample (n : Option Nat) (d : Nat) (c : Bool) (s : State) (hs : s.session = none) :
    exec (.sample n d c) s =
      besideBlock s fun t => t.startSession (beginSession (maxAttemptsOf s.cfg.toParams n) d c) :=
  execSample_no_session n d c s hs

/-- A meaning beside the block's tick has none in a reserved state (U2). -/
theorem besideBlock_reserved (s : State) (f : State → State) (hn : stNamed s.regs.st = false) :
    besideBlock s f = .refused (.reservedState (stCode s.regs.st)) := by
  simp [besideBlock, hn]

/-- The fetch gives a micro-step's instruction only from `st`: a unit call is no micro-step. -/
theorem fetch_notReserved {s : State} {i : Instr} (hn : stNamed s.regs.st = true) (hf : fetch s = .ok i) :
    i.notReserved = true := by
  cases hc : s.callNow with
  | none =>
    rw [fetch_microstep s hc] at hf
    cases hf
    exact hn
  | some c =>
    rw [fetch_call s c hc] at hf
    cases c with
    | frame w =>
      rw [callInstr_frame] at hf
      cases hf
      rfl
    | symbol high low => cases hf; rfl
    | wait l n => cases hf; rfl
    | sample n d c => cases hf; rfl

/-- Settles O38: the rows refuse by definition, unit calls for want of a tick to run beside; the invariant keeps `st` named. -/
theorem reservedCodesAreRefused : Obligations.ReservedCodesAreRefused := by
  refine ⟨fun _ => ⟨rfl, rfl, rfl⟩, fun s hn => ⟨fun a b c => ?frame40, fun a b => ?symbol, fun n d c hs => ?sample⟩,
    fun s hl hinv => ?fetched⟩
  case frame40 => exact (exec_frame40 a b c s).trans (besideBlock_reserved s _ hn)
  case symbol => exact (exec_symbol a b s).trans (besideBlock_reserved s _ hn)
  case sample => exact (exec_sample n d c s hs).trans (besideBlock_reserved s _ hn)
  case fetched =>
    have hn := (hinv hl).1.st_named
    refine ⟨fun hf => ?_, fun hf => ?_, fun hf => ?_⟩ <;> cases fetch_notReserved hn hf

end Sys2Proof.Machine
end

section
/-! PROOFS of the family 30_encoding.md: the formats' decoders and the encoder are inverse to each other (R71 to R73, R77), and the
codes of `st` and `err` are distinct. -/

namespace Sys2Proof.Machine

/-! ## From a word to its instruction and back -/

/-- The word of a command is the command (R71). -/
theorem encode_decodeCmd (c : BitVec 2) : encode (decodeCmd c) = some { fmt := .cmd, bits := c.toNat } := by
  revert c
  decide

/-- The word of a micro-step is its state code (R72). -/
theorem encode_decodeState (c : BitVec 4) : encode (decodeState c) = some { fmt := .state, bits := c.toNat } := by
  revert c
  decide

/-- The word of an error row is its code (R73). -/
theorem encode_of_decodeErr (c : BitVec 4) (i : Instr) (h : decodeErr c = .ok i) :
    encode i = some { fmt := .err, bits := c.toNat } := by
  have hcodes : ∀ c : BitVec 4,
      (decodeErr c).instr.all (fun i => encode i = some { fmt := .err, bits := c.toNat }) = true := by decide
  simpa [h, Decoded.instr] using hcodes c

/-- The word of a frame's fields is the frame (R77). -/
theorem encode_decodeFrame40 (f : Frame) : encode (decodeFrame40 f) = some { fmt := .frame40, bits := f.toNat } := by
  simp only [decodeFrame40, encode, fields_append]

/-- The fields of a frame that is put together from fields (R77). -/
theorem decodeFrame40_fields (hum temp : BitVec 16) (cksum : BitVec 8) :
    decodeFrame40 (hum ++ temp ++ cksum) = .frame40 hum temp cksum := by
  have hhum : (hum ++ temp ++ cksum : BitVec 40).extractLsb' 24 16 = hum :=
    (BitVec.extractLsb'_append_eq_of_le (by omega)).trans (BitVec.extractLsb'_append_eq_left (b := temp))
  have htemp : (hum ++ temp ++ cksum : BitVec 40).extractLsb' 8 16 = temp :=
    (BitVec.extractLsb'_append_eq_of_le (by omega)).trans (BitVec.extractLsb'_append_eq_right (a := hum))
  have hcksum : (hum ++ temp ++ cksum : BitVec 40).extractLsb' 0 8 = cksum :=
    BitVec.extractLsb'_append_eq_right (a := hum ++ temp)
  rw [decodeFrame40, hhum, htemp, hcksum]

/-- A word that decodes is the word of its instruction. -/
theorem encode_of_decode {w : TableWord} {i : Instr} (h : decode w = .ok i) : encode i = some w := by
  obtain ⟨fmt, bits⟩ := w
  cases fmt <;> simp only [decode] at h
  case cmd =>
    split at h <;> cases h
    rw [encode_decodeCmd, BitVec.toNat_ofNat, Nat.mod_eq_of_lt ‹_›]
  case state =>
    split at h <;> cases h
    rw [encode_decodeState, BitVec.toNat_ofNat, Nat.mod_eq_of_lt ‹_›]
  case err =>
    split at h
    · rw [encode_of_decodeErr _ _ h, BitVec.toNat_ofNat, Nat.mod_eq_of_lt ‹_›]
    · cases h
  case frame40 =>
    split at h <;> cases h
    rw [encode_decodeFrame40, BitVec.toNat_ofNat, Nat.mod_eq_of_lt ‹_›]
  all_goals cases h

/-- The word of an instruction decodes to it: a bare number for all rows but NOP and FRAME40, whose operands it carries. -/
theorem decode_of_encode {i : Instr} {w : TableWord} (h : encode i = some w) : decode w = .ok i := by
  cases i <;> simp only [encode] at h <;> cases h
  case nop cold => cases cold <;> rfl
  case frame40 hum temp cksum =>
    have hlt : (hum ++ temp ++ cksum : BitVec 40).toNat < 1099511627776 := (hum ++ temp ++ cksum : BitVec 40).isLt
    simp only [decode, if_pos hlt, BitVec.ofNat_toNat, BitVec.setWidth_eq, decodeFrame40_fields]
  all_goals rfl

/-- Settles O7: `decode_of_encode` and `encode_of_decode`. -/
theorem decodeAndEncodeAgree : Obligations.DecodeAndEncodeAgree :=
  ⟨fun _ _ => decode_of_encode, fun _ _ => encode_of_decode⟩

/-- Settles O6: the tables' words, evaluated. -/
theorem tableWordsDecode : Obligations.TableWordsDecode :=
  ⟨rfl, rfl, rfl, rfl, rfl, rfl, rfl, rfl, rfl, decode_of_encode rfl⟩

/-! ## Codes (R72, R73) -/

/-- A state is read back from its code. -/
theorem stOfCode_stCode (x : St) : stOfCode (stCode x) = x := by
  cases x <;> rfl

/-- The row of register `err`: NONE, or Ek. -/
def errRow : Option ErrName → Instr
  | none => .errNone
  | some k => errInstr k

/-- An error is read back from its code. -/
theorem decodeErr_errCode (e : Option ErrName) : decodeErr (errCode e) = .ok (errRow e) := by
  cases e with
  | none => rfl
  | some k => cases k <;> rfl

/-- The name of an error row. -/
def errOfRow : Instr → Option ErrName
  | .e1 => some .e1
  | .e2 => some .e2
  | .e3 => some .e3
  | .e4 => some .e4
  | .e5 => some .e5
  | .e6 => some .e6
  | .e7 => some .e7
  | .e8 => some .e8
  | .e9 => some .e9
  | _ => none

theorem errOfRow_errRow (e : Option ErrName) : errOfRow (errRow e) = e := by
  cases e with
  | none => rfl
  | some k => cases k <;> rfl

/-- No two errors share a code: each is read back from its own. -/
theorem errCode_injective : Function.Injective errCode := by
  intro a b h
  have hrow : errRow a = errRow b := by
    have := decodeErr_errCode a
    rw [h, decodeErr_errCode b] at this
    exact (Decoded.ok.inj this).symm
  rw [← errOfRow_errRow a, hrow, errOfRow_errRow]

/-- The code of an error row is its word's (R73). -/
theorem encode_errInstr (k : ErrName) :
    encode (errInstr k) = some { fmt := .err, bits := (errCode (some k)).toNat } :=
  encode_of_decodeErr _ _ (decodeErr_errCode (some k))

/-- Settles O8: each code is read back by the decoder, which gives the distinctness, and is its row's word. -/
theorem codesOfStatesAndErrors : Obligations.CodesOfStatesAndErrors := by
  refine ⟨?states, by decide, errCode_injective, ?range, fun x => encode_of_decode (decode_stCode x), encode_errInstr⟩
  case states => exact Function.LeftInverse.injective stOfCode_stCode
  case range =>
    intro e
    cases e with
    | none => exact Nat.zero_le 9
    | some k =>
      rw [errCode_some_toNat]
      exact (errNumber_bounds k).2

end Sys2Proof.Machine
end

section
/-! PROOFS of the families 00_scope.md and 70_reset_and_hazards.md, and of 41_handshake_fsm.md section 7: the constants, the start
state, and what a step fetches. -/

namespace Sys2Proof.Machine

/-- Settles O2: the fields of `State.reset`. -/
theorem resetStateOfTheModel : Obligations.ResetStateOfTheModel := ⟨rfl, rfl, rfl, rfl, rfl, rfl⟩

/-- Settles O3: the fields of `Config.standard`. -/
theorem standardConstants : Obligations.StandardConstants :=
  ⟨rfl, rfl, rfl, rfl, rfl, rfl, rfl, rfl, rfl, rfl, rfl, rfl, rfl, rfl, rfl, rfl, rfl, rfl, rfl⟩

/-- Settles O4: `step_not_live`. -/
theorem nothingRunsBeforeTheFirstReset : Obligations.NothingRunsBeforeTheFirstReset := step_not_live

/-- The call of a wait state can run only as that state's own, with its operands (R79, R105). -/
theorem callFits_wait_iff (p : Params) (x : St) (l : Level) (n : Nat) :
    callFits p x (.wait l n) = true ↔ isWait x = true ∧ l = waitTarget x ∧ n = waitTimeout p x := by
  simp [callFits, and_assoc]

/-- A wait state is a named one (R80). -/
theorem stNamed_of_wait {x : St} (hw : isWait x = true) : stNamed x = true := by
  revert hw
  cases x <;> decide

/-- A pending call runs if no session does, `st` is named and the call fits. -/
theorem callNow_of_fits {s : State} {c : Call} (hs : s.session = none) (hn : stNamed s.regs.st = true)
    (hc : s.call = some c) (hfits : callFits s.cfg.toParams s.regs.st c = true) : s.callNow = some c := by
  simp [State.callNow, hs, hn, hc, hfits]

/-- A call that does not fit stays pending. -/
theorem callNow_of_not_fits {s : State} {c : Call} (hc : s.call = some c)
    (hfits : callFits s.cfg.toParams s.regs.st c = false) : s.callNow = none := by
  simp [State.callNow, hc, hfits]

/-- In a reserved state no call runs (U2). -/
theorem callNow_reserved {s : State} (hn : stNamed s.regs.st = false) : s.callNow = none := by
  simp [State.callNow, hn]

/-- Without a call that can run, the step is the micro-step of `st` (R21, R72). -/
theorem step_microstep {s : State} (hl : s.live = true) (hr : s.ports.rst = false) (hc : s.callNow = none) :
    step s = exec (stInstr s.regs.st) s :=
  step_fetched s _ hl hr (fetch_microstep s hc)

/-- Settles O5: the fetch by what `callNow` gives; the registers by `step_regs`. -/
theorem stepRunsTheFetchedInstruction : Obligations.StepRunsTheFetchedInstruction := by
  intro s hl hr
  refine ⟨fun i => step_fetched s i hl hr, fun hno => ?micro, fun c hs hn hc hne => ?call,
    fun l n hs hc => ⟨fun hw hl hn => ?wait, fun hne => ?pending⟩, fun hn => ?regs⟩
  case micro =>
    have hnow : s.callNow = none := by
      rcases hno with h | h | h
      · exact callNow_session s h
      · exact callNow_none s h
      · exact callNow_reserved h
    exact ⟨(fetch_microstep s hnow).trans (decode_stCode _).symm, step_microstep hl hr hnow⟩
  case call =>
    refine fetch_call s c (callNow_of_fits hs hn hc ?_)
    cases c with
    | wait l n => exact absurd rfl (hne l n)
    | _ => rfl
  case wait =>
    exact fetch_call s _ (callNow_of_fits hs (stNamed_of_wait hw) hc ((callFits_wait_iff _ _ _ _).mpr ⟨hw, hl, hn⟩))
  case pending =>
    have hfits : callFits s.cfg.toParams s.regs.st (.wait l n) = false := by
      rw [Bool.eq_false_iff, Ne, callFits_wait_iff]
      rintro ⟨hw, hl, hn⟩
      rcases hne with h | h | h
      · exact Bool.false_ne_true (h.symm.trans hw)
      · exact h hl
      · exact h hn
    exact step_microstep hl hr (callNow_of_not_fits hc hfits)
  case regs =>
    obtain ⟨t, hstep, hregs, helapsed⟩ := step_regs s hl hr hn
    exact ⟨t, _, hstep, exec_microstep s hn, hregs, helapsed⟩

/-- What an `IDLE` tick reads of two inputs that agree on `start`, and on `cold` where `start` is 1 (R31). -/
theorem blockTick_idle_congr {p : Params} {i j : Input} {r : Regs} (hst : r.st = .idle) (hstart : i.start = j.start)
    (hcold : i.start = true → i.cold = j.cold) : blockTick p i r = blockTick p j r := by
  rw [blockTick_idle hst, blockTick_idle hst, ← hstart]
  split
  · rw [hcold ‹_›]
  · rfl

/-- The command of a listed input reaches the block, unless a session puts its own in the place of both (R171). -/
theorem ports_command_congr (s : State) (i j : Input) (rest : List Input) (hstop : s.session ≠ none → i.stop = j.stop)
    (hstart : i.start = j.start) (hcold : i.start = true → i.cold = j.cold) :
    (State.ports { s with env := i :: rest }).start = (State.ports { s with env := j :: rest }).start ∧
    ((State.ports { s with env := i :: rest }).start = true →
      (State.ports { s with env := i :: rest }).cold = (State.ports { s with env := j :: rest }).cold) := by
  have hhost := host_input_congr s i j rest hstop
  unfold State.ports
  rw [hhost]
  cases State.host { s with env := j :: rest } with
  | none => exact ⟨hstart, hcold⟩
  | some m => exact ⟨rfl, fun _ => rfl⟩

/-- A busy block that is in no wait state reads nothing (R31, R52). -/
theorem blockTick_unpolled {p : Params} {i j : Input} {r : Regs} (hst : r.st ≠ .idle) (hw : isWait r.st = false) :
    blockTick p i r = blockTick p j r :=
  calc blockTick p i r = blockTick p { i with smp := j.smp } r := by
        simp only [blockTick, hw]
        rfl
    _ = blockTick p j r := blockTick_busy _ _ _ _ hst rfl

/-- Settles O13: `step_input_congr`, with the block's tick split on whether the block is idle. -/
theorem unreadInputsDoNotMatter : Obligations.UnreadInputsDoNotMatter := by
  intro s i j rest hrst hstop hidle hwait
  refine step_input_congr s i j rest hrst hstop (fun hr => ?_) hwait
  by_cases hst : s.regs.st = .idle
  · obtain ⟨hstart, hcold⟩ := hidle hr hst
    obtain ⟨hs, hc⟩ := ports_command_congr s i j rest hstop hstart hcold
    exact blockTick_idle_congr hst hs hc
  · cases hw : isWait s.regs.st with
    | true =>
      refine blockTick_busy _ _ _ _ hst ?_
      rw [(ports_listed s i rest).2, (ports_listed s j rest).2, hwait hr hw]
    | false => exact blockTick_unpolled hst hw

end Sys2Proof.Machine
end

section
/-! PROOFS of the family 41_handshake_fsm.md section 6: the block's tick and the transition table of R139 agree. -/

namespace Sys2Proof.Machine

/-! ## Every tick is a row -/

/-- The line shows a level in the table's sense exactly where a poll is unanimous (R101). -/
theorem shows_iff (i : Input) (l : Level) : Shows i l ↔ unanimous i.smp l = true := by
  simp [Shows, unanimous, and_assoc]

/-- The shift of the table is the shift of the model, on the frame's bits (R24, R133). -/
theorem shiftIn_eq_shiftLeft (f : Frame) (b : Bool) :
    (f.extractLsb' 0 39 ++ BitVec.ofBool b : Frame) = (f <<< 1) ||| (if b then 1 else 0) := by
  apply BitVec.eq_of_getLsbD_eq
  intro j hj
  cases j with
  | zero =>
    have hbit : (f.extractLsb' 0 39 ++ BitVec.ofBool b : Frame).getLsbD 0 = b := BitVec.getLsbD_concat_zero
    rw [hbit]
    cases b <;> simp
  | succ j =>
    have hbit : (f.extractLsb' 0 39 ++ BitVec.ofBool b : Frame).getLsbD (j + 1) = f.getLsbD j :=
      BitVec.getLsbD_concat_succ.trans (by simp; omega)
    rw [hbit]
    cases b <;> simp [hj, BitVec.getLsbD_eq_getElem (show j < 40 by omega)]

/-- The table's `B_LO` accept is the model's (R133). -/
theorem captureBit_row (p : Params) (r : Regs) (e : Nat) :
    captureBit p r e = { r with frame := (r.frame <<< 1) ||| (if p.thBit ≤ e then 1 else 0), tmr := 1, st := .bHi } := by
  have h := shiftIn_eq_shiftLeft r.frame (bitOfElapsed p e)
  simp only [bitOfElapsed, decide_eq_true_eq] at h
  rw [captureBit, bitOfElapsed, h]

/-- A wait state's tick is a row if its three cases are (R108). -/
theorem row_wait {p : Params} {i : Input} {r a : Regs} {w : St} (hst : r.st = w) (hw : isWait w = true)
    (htimeout : waitTimeout p w ≤ r.tmr.toNat →
      Row p i r { r with err := some (waitError w), tmr := 0, st := .s8Restore })
    (haccept : r.tmr.toNat < waitTimeout p w → Shows i (waitTarget w) → Row p i r a)
    (hmiss : r.tmr.toNat < waitTimeout p w → ¬ Shows i (waitTarget w) → Row p i r { r with tmr := r.tmr + 1 })
    (haction : acceptAction p r = a) :
    Row p i r (blockTick p i r) := by
  subst hst haction
  by_cases htime : waitTimeout p r.st ≤ r.tmr.toNat
  · rw [blockTick_timeout hw htime]
    exact htimeout htime
  · have htime := Nat.not_le.mp htime
    rw [shows_iff] at haccept hmiss
    by_cases hpoll : unanimous i.smp (waitTarget r.st) = true
    · rw [blockTick_accept hw htime hpoll]
      exact haccept htime hpoll
    · rw [blockTick_miss hw htime hpoll]
      exact hmiss htime hpoll

/-- A timed state's tick is a row if its two cases are, the timer being within its limit (R123, R124). -/
theorem row_timed {p : Params} {i : Input} {r : Regs} {n : Nat} {x : St} (hlimit : r.tmr.toNat ≤ n - 1)
    (hend : r.tmr.toNat = n - 1 → Row p i r { r with tmr := 0, st := x })
    (hstay : r.tmr.toNat < n - 1 → Row p i r { r with tmr := r.tmr + 1 }) : Row p i r (timedStep r n x) := by
  rcases timedStep_cases r n x with ⟨h, heq⟩ | ⟨h, heq⟩ <;> rw [heq]
  · exact hend h
  · exact hstay (by omega)

/-- `W4_ACK_HIGH` accepts into the start bit if cold, into the payload if warm (R128, R131). -/
theorem row_w4Accept {p : Params} {i : Input} {r : Regs} (hst : r.st = .w4AckHigh) (htime : r.tmr.toNat < p.toAckHigh)
    (hshow : Shows i .high) : Row p i r (acceptAction p r) := by
  simp only [acceptAction, hst]
  cases hc : r.coldQ with
  | true => exact .w4Cold hst htime hshow hc
  | false => exact .w4Warm hst htime hshow hc

/-- `B_HI` accepts the last bit, or one before it (R134). -/
theorem row_bHiAccept {p : Params} {i : Input} {r : Regs} (hst : r.st = .bHi) (hbits : r.bitcnt.toNat < 40)
    (htime : r.tmr.toNat < p.toBitHigh) (hshow : Shows i .high) : Row p i r (acceptAction p r) := by
  simp only [acceptAction, hst]
  rw [countBit_eq]
  split
  · exact .bHiLast hst htime hshow ‹_›
  · exact .bHiMore hst htime hshow (by omega)

/-- The decoder's answer decides which row a validation is (R150). -/
theorem row_publish {p : Params} {i : Input} {r : Regs} (hst : r.st = .s9Validate) :
    Row p i r (publish r (decodeWord p r.frame)) := by
  cases hres : decodeWord p r.frame with
  | ok h t => exact .s9Ok h t hst hres
  | e8 => exact .s9Checksum hst hres
  | e9 => exact .s9Range hst hres

/-- Under the invariant the block's tick is a row of the table, state by state. -/
theorem row_blockTick {p : Params} (i : Input) {r : Regs} (hi : RegsInv p r) : Row p i r (blockTick p i r) := by
  have hlimit := hi.timer_bound
  cases hst : r.st
  case idle =>
    rw [blockTick_idle hst]
    cases hs : i.start with
    | false => exact .idleStay hst hs
    | true => exact .idleStart hst hs
  case s0IdleHigh =>
    rw [hst] at hlimit
    rw [blockTick_s0IdleHigh hst]
    exact row_timed hlimit (.s0End hst) (.s0Stay hst)
  case s1StartLow =>
    rw [hst] at hlimit
    rw [blockTick_startLow p i r hst]
    exact row_timed hlimit (.s1End hst) (.s1Stay hst)
  case s2Release =>
    rw [blockTick_s2Release hst]
    exact .s2End hst
  case w2RelHigh =>
    exact row_wait hst rfl (.w2Timeout hst) (.w2Accept hst) (.w2Stay hst) (by simp [acceptAction, hst, chainTo])
  case w3AckLow =>
    exact row_wait hst rfl (.w3Timeout hst) (.w3Accept hst) (.w3Stay hst) (by simp [acceptAction, hst, chainTo])
  case w4AckHigh => exact row_wait hst rfl (.w4Timeout hst) (row_w4Accept hst) (.w4Stay hst) rfl
  case w5SbLow =>
    exact row_wait hst rfl (.w5Timeout hst) (.w5Accept hst) (.w5Stay hst) (by simp [acceptAction, hst, chainTo])
  case w6SbHigh =>
    exact row_wait hst rfl (.w6Timeout hst) (.w6Accept hst) (.w6Stay hst) (by simp [acceptAction, hst, chainTo])
  case bLo =>
    exact row_wait hst rfl (.bLoTimeout hst) (.bLoAccept hst) (.bLoStay hst)
      (by simp [acceptAction, hst, captureBit_row])
  case bHi =>
    exact row_wait hst rfl (.bHiTimeout hst) (row_bHiAccept hst (hi.bitcnt_lt (.inr hst))) (.bHiStay hst) rfl
  case s8Restore =>
    by_cases he : r.err = none
    · rw [blockTick_s8_good hst he]
      exact .s8Good hst he
    · rw [blockTick_s8_failed hst he]
      exact .s8Failed hst he
  case s9Validate =>
    rw [blockTick_s9Validate hst]
    exact row_publish hst
  all_goals exact absurd hi.st_named (by rw [hst]; decide)

/-- Settles O39: a step without `rst` gives the registers the block's tick, which is a row. -/
theorem stepsAreRowsOfTheTable : Obligations.StepsAreRowsOfTheTable := by
  intro s t hi hr h
  rcases step_cases h with ⟨hr', _⟩ | ⟨_, _, _, rfl⟩
  · exact absurd (hr.symm.trans hr') Bool.false_ne_true
  · rw [(besideTick_block s _).1]
    exact row_blockTick _ hi

/-! ## Every row is a tick -/

/-- The tick of a timed state before its last (R123, R124). -/
theorem timedStep_before {r : Regs} {n : Nat} (x : St) (h : r.tmr.toNat < n - 1) :
    timedStep r n x = { r with tmr := r.tmr + 1 } := timedStep_stay x h.ne

/-- A row starts from a named state. -/
theorem Row.named {p : Params} {i : Input} {r r' : Regs} (h : Row p i r r') : stNamed r.st = true := by
  have hrow : ∃ x, r.st = x ∧ stNamed x = true := by
    cases h <;> exact ⟨_, ‹r.st = _›, rfl⟩
  obtain ⟨x, hst, hn⟩ := hrow
  exact hst ▸ hn

section
variable {p : Params} {i : Input} {r : Regs} {w : St}

/-- A timeout row is the tick of its wait state. -/
theorem tick_timeout (hst : r.st = w) (hw : isWait w = true) (h : waitTimeout p w ≤ r.tmr.toNat) :
    blockTick p i r = { r with err := some (waitError w), tmr := 0, st := .s8Restore } := by
  subst hst
  exact blockTick_timeout hw h

/-- An accept row is the tick of its wait state. -/
theorem tick_accept (hst : r.st = w) (hw : isWait w = true) (h : r.tmr.toNat < waitTimeout p w)
    (hshow : Shows i (waitTarget w)) : blockTick p i r = acceptAction p r := by
  subst hst
  exact blockTick_accept hw h ((shows_iff _ _).mp hshow)

/-- A stay row is the tick of its wait state. -/
theorem tick_miss (hst : r.st = w) (hw : isWait w = true) (h : r.tmr.toNat < waitTimeout p w)
    (hshow : ¬ Shows i (waitTarget w)) : blockTick p i r = { r with tmr := r.tmr + 1 } := by
  subst hst
  exact blockTick_miss hw h fun hpoll => hshow ((shows_iff _ _).mpr hpoll)

end

/-- What a row says of the next registers is the block's tick, row by row. -/
theorem Row.eq_blockTick {p : Params} {i : Input} {r r' : Regs} (h : Row p i r r') : blockTick p i r = r' := by
  cases h with
  | idleStay hst hs => simp [blockTick_idle hst, hs]
  | idleStart hst hs => simp [blockTick_idle hst, hs, acceptCommand]
  | s0Stay hst h => rw [blockTick_s0IdleHigh hst, timedStep_before _ h]
  | s0End hst h => rw [blockTick_s0IdleHigh hst, timedStep_end _ h]
  | s1Stay hst h => rw [blockTick_startLow _ _ _ hst, timedStep_before _ h]
  | s1End hst h => rw [blockTick_startLow _ _ _ hst, timedStep_end _ h]
  | s2End hst => exact blockTick_s2Release hst
  | w2Timeout hst h => exact tick_timeout hst rfl h
  | w2Accept hst h hs => exact (tick_accept hst rfl h hs).trans (by simp [acceptAction, hst, chainTo])
  | w2Stay hst h hs => exact tick_miss hst rfl h hs
  | w3Timeout hst h => exact tick_timeout hst rfl h
  | w3Accept hst h hs => exact (tick_accept hst rfl h hs).trans (by simp [acceptAction, hst, chainTo])
  | w3Stay hst h hs => exact tick_miss hst rfl h hs
  | w4Timeout hst h => exact tick_timeout hst rfl h
  | w4Cold hst h hs hc => exact (tick_accept hst rfl h hs).trans (by simp [acceptAction, hst, chainTo, hc])
  | w4Warm hst h hs hc => exact (tick_accept hst rfl h hs).trans (by simp [acceptAction, hst, chainTo, hc])
  | w4Stay hst h hs => exact tick_miss hst rfl h hs
  | w5Timeout hst h => exact tick_timeout hst rfl h
  | w5Accept hst h hs => exact (tick_accept hst rfl h hs).trans (by simp [acceptAction, hst, chainTo])
  | w5Stay hst h hs => exact tick_miss hst rfl h hs
  | w6Timeout hst h => exact tick_timeout hst rfl h
  | w6Accept hst h hs => exact (tick_accept hst rfl h hs).trans (by simp [acceptAction, hst, chainTo])
  | w6Stay hst h hs => exact tick_miss hst rfl h hs
  | bLoTimeout hst h => exact tick_timeout hst rfl h
  | bLoAccept hst h hs => exact (tick_accept hst rfl h hs).trans (by simp [acceptAction, hst, captureBit_row])
  | bLoStay hst h hs => exact tick_miss hst rfl h hs
  | bHiTimeout hst h => exact tick_timeout hst rfl h
  | bHiLast hst h hs hb => exact (tick_accept hst rfl h hs).trans (by simp [acceptAction, hst, countBit_eq, hb])
  | bHiMore hst h hs hb => exact (tick_accept hst rfl h hs).trans (by simp [acceptAction, hst, countBit_eq, hb.ne])
  | bHiStay hst h hs => exact tick_miss hst rfl h hs
  | s8Failed hst he => exact blockTick_s8_failed hst he
  | s8Good hst he => exact blockTick_s8_good hst he
  | s9Ok h t hst hres => rw [blockTick_s9Validate hst, hres]; rfl
  | s9Checksum hst hres => rw [blockTick_s9Validate hst, hres]; rfl
  | s9Range hst hres => rw [blockTick_s9Validate hst, hres]; rfl

/-- Without a call that can run, nothing runs beside the tick. -/
theorem besideTick_no_call {s : State} (h : s.callNow = none) (t : State) : s.besideTick t = t := by
  simp [State.besideTick, h]

/-- Settles O40: a row's state is named, so the step is the block's tick, which the row gives; without a call the host's side is
that of the end of a tick. -/
theorem rowsOfTheTableAreSteps : Obligations.RowsOfTheTableAreSteps := by
  intro s r hl hr hrow
  obtain rfl := hrow.eq_blockTick
  have hstep := step_named s hl hr hrow.named
  obtain ⟨t, hnext, hregs, helapsed⟩ := step_regs s hl hr hrow.named
  refine ⟨t, hnext, hregs, helapsed, fun hc => ?host⟩
  case host =>
    rw [hstep, besideTick_no_call (callNow_none s hc)] at hnext
    obtain rfl := Host.Outcome.next.inj hnext
    exact (finishTick_elapsed s _).1.2

end Sys2Proof.Machine
end

section
/-! PROOFS about single ticks: the `IDLE` tick (R121, R122), `S8_RESTORE` (R135), errors (R191, R204), one tick of a
`wait_for_level` call (R101 to R108), SYMBOL (R75), the validation (R150) and FRAME40 (R158). -/

namespace Sys2Proof.Machine

/-! ## `IDLE` and `S8_RESTORE` -/

/-- Settles O11: the `IDLE` tick, for both values of `start`. -/
theorem idleHoldsOrAccepts : Obligations.IdleHoldsOrAccepts := by
  intro s
  refine ⟨fun hstart => ?hold, fun hstart => ?accept⟩
  case hold => exact completes_of_tickTo _ s _ (by simp [exec_idle, hstart])
  case accept => exact completes_of_tickTo _ s (acceptCommand s.regs s.ports.cold) (by simp [exec_idle, hstart])

/-- Settles O12: the four command words, decoded; each row does what the `IDLE` tick does of its bits. -/
theorem idleRunsTheCommandRow : Obligations.IdleRunsTheCommandRow := by
  intro s i hst hdec
  rw [exec_idle]
  cases hs : s.ports.start <;> cases hc : s.ports.cold <;> rw [hs, hc] at hdec <;>
    obtain rfl := Decoded.ok.inj hdec
  · rfl
  · rfl
  · exact (congrArg (tickTo s) (if_pos hst)).symm
  · exact (congrArg (tickTo s) (if_pos hst)).symm

/-- Settles O15: `restoreStep`, with and without a pending error. -/
theorem restoreFinishesOrValidates : Obligations.RestoreFinishesOrValidates := by
  intro s
  refine ⟨fun he => ?failed, fun he => ?good⟩
  case failed =>
    exact completes_of_tickTo _ s _ (congrArg (tickTo s) (if_pos (Option.isSome_iff_ne_none.mpr he)))
  case good => exact completes_of_tickTo _ s _ (congrArg (tickTo s) (if_neg (by simp [he])))

/-! ## Errors -/

/-- An error row raises its error (R191). -/
theorem exec_errInstr (k : ErrName) (s : State) : exec (errInstr k) s = tickTo s (raiseError s.regs k) := by
  cases k <;> rfl

/-- Settles O35: the error rows raise their errors, a timeout as `raiseError_timeout` says. -/
theorem raisingAnError : Obligations.RaisingAnError := by
  intro s
  refine ⟨fun k hk => ?timeout, fun k hk => ?validation, completes_of_tickTo _ s _ rfl⟩
  case timeout =>
    have hne : k ≠ .e8 ∧ k ≠ .e9 := by
      constructor <;> rintro rfl <;> simp at hk
    exact completes_of_tickTo _ s _ (by rw [exec_errInstr, raiseError_timeout _ _ hne.1 hne.2])
  case validation =>
    simp only [List.mem_cons, List.not_mem_nil, or_false] at hk
    rcases hk with rfl | rfl <;> exact completes_of_tickTo _ s _ rfl

/-- A wait whose time has elapsed raises its error, whatever it would accept (R108, R203(b)). -/
theorem waitTick_timeout {s : State} {w : St} (accepted : Regs) (h : waitTimeout s.cfg.toParams w ≤ s.regs.tmr.toNat) :
    waitTick s w accepted = tickTo s (raiseError s.regs (waitError w)) :=
  congrArg (tickTo s) (if_pos h)

/-- `S9_VALIDATE` ends its tick with the decoder's outcome (R150). -/
theorem exec_s9Validate (s : State) :
    exec .s9Validate s = tickTo s (publish s.regs (decodeWord s.cfg.toParams s.regs.frame)) := rfl

/-- Settles O36: seven waits at their timeouts, and the two rejections of the decoder. -/
theorem microstepsRaiseTheirErrorRows : Obligations.MicrostepsRaiseTheirErrorRows := by
  intro s
  refine ⟨waitTick_timeout (w := .w2RelHigh) _, waitTick_timeout (w := .w3AckLow) _, waitTick_timeout (w := .w4AckHigh) _,
    waitTick_timeout (w := .w5SbLow) _, waitTick_timeout (w := .w6SbHigh) _, waitTick_timeout (w := .bLo) _,
    waitTick_timeout (w := .bHi) _, fun hres => ?e8, fun hres => ?e9⟩
  case e8 => rw [exec_s9Validate, hres]; rfl
  case e9 => rw [exec_s9Validate, hres]; rfl

/-! ## One tick of a `wait_for_level` call -/

/-- A call whose timeout `tmr` can reach, in a wait state, is one tick of that state's wait with the call's operands (R108). -/
theorem exec_waitForLevel {l : Level} {n : Nat} {s : State} (hw : isWait s.regs.st = true) (hn : n ≤ 1023) :
    exec (.waitForLevel l n) s =
      .next ((finishTick s (waitStep s.regs s.ports.smp l n (waitError s.regs.st)
        (acceptAction s.cfg.toParams s.regs))).answerWait (waitAnswer l n s.regs.tmr.toNat s.ports.smp)) := by
  rcases execWaitForLevel_cases l n s with ⟨h, _⟩ | ⟨_, h, _⟩ | ⟨_, _, h⟩
  · simp [hw] at h
  · omega
  · exact h

/-- Settles O22: the three cases of the wait and the three of its answer go together. -/
theorem waitCallPollsOncePerTick : Obligations.WaitCallPollsOncePerTick := by
  intro l n s
  refine ⟨fun hw hn => ⟨fun htime => ?timeout, fun htime hpoll => ?accept, fun htime hpoll => ?miss⟩, fun hw => ?own,
    fun hw => ?driven, fun hw hn => ?long⟩
  case timeout =>
    obtain ⟨h8, h9⟩ := waitError_timeout s.regs.st
    have hregs : waitStep s.regs s.ports.smp l n (waitError s.regs.st) (acceptAction s.cfg.toParams s.regs) =
        { s.regs with err := some (waitError s.regs.st), tmr := 0, st := .s8Restore } :=
      (if_pos htime).trans (raiseError_timeout _ _ h8 h9)
    have hanswer : waitAnswer l n s.regs.tmr.toNat s.ports.smp = some .timeout := if_pos htime
    rw [exec_waitForLevel hw hn, hregs, hanswer]
    exact ⟨_, rfl, ⟨rfl, rfl, rfl, rfl⟩, rfl, rfl, rfl⟩
  case accept =>
    have hu := (unanimous_iff _ _).mpr hpoll
    have hregs : waitStep s.regs s.ports.smp l n (waitError s.regs.st) (acceptAction s.cfg.toParams s.regs) =
        acceptAction s.cfg.toParams s.regs := (if_neg (Nat.not_le.mpr htime)).trans (if_pos hu)
    have hanswer : waitAnswer l n s.regs.tmr.toNat s.ports.smp = some (.elapsed s.regs.tmr.toNat) :=
      (if_neg (Nat.not_le.mpr htime)).trans (if_pos hu)
    rw [exec_waitForLevel hw hn, hregs, hanswer]
    exact ⟨_, rfl, ⟨rfl, rfl, rfl, rfl⟩, rfl, rfl, rfl⟩
  case miss =>
    have hu : ¬ unanimous s.ports.smp l = true := fun hu => hpoll ((unanimous_iff _ _).mp hu)
    have hregs : waitStep s.regs s.ports.smp l n (waitError s.regs.st) (acceptAction s.cfg.toParams s.regs) =
        { s.regs with tmr := BitVec.ofNat 10 (s.regs.tmr.toNat + 1) } := by
      rw [← tmr_add_one]
      exact (if_neg (Nat.not_le.mpr htime)).trans (if_neg hu)
    have hanswer : waitAnswer l n s.regs.tmr.toNat s.ports.smp = none :=
      (if_neg (Nat.not_le.mpr htime)).trans (if_neg hu)
    rw [exec_waitForLevel hw hn, hregs, hanswer]
    obtain ⟨helapsed, hcall⟩ := finishTick_elapsed s { s.regs with tmr := BitVec.ofNat 10 (s.regs.tmr.toNat + 1) }
    exact ⟨_, rfl, helapsed, hcall, rfl⟩
  case own =>
    refine ⟨_, _, execWaitForLevel_own s hw, exec_microstep s (stNamed_of_wait hw), ?_⟩
    rw [answerWait_regs]
  case driven =>
    rcases execWaitForLevel_cases l n s with ⟨_, h⟩ | ⟨h, _⟩ | ⟨h, _⟩
    · exact h
    · exact absurd (hw.symm.trans h) Bool.false_ne_true
    · exact absurd (hw.symm.trans h) Bool.false_ne_true
  case long =>
    rcases execWaitForLevel_cases l n s with ⟨h, _⟩ | ⟨_, _, h⟩ | ⟨_, h, _⟩
    · exact absurd (h.symm.trans hw) Bool.false_ne_true
    · exact h
    · omega

/-! ## Unit calls that hand back a result beside the tick -/

/-- A meaning beside the block's tick that answers `x` returns it, with the micro-step's next state (R60). -/
theorem returns_of_besideBlock {i : Instr} {s : State} {x : Ret} (hn : stNamed s.regs.st = true)
    (h : exec i s = besideBlock s fun t => t.answer x) : Returns i s x :=
  ⟨_, exec_microstep s hn, h.trans (besideBlock_named s _ hn)⟩

/-- A symbol returns its classification (R75). -/
theorem returns_symbol {s : State} {high low : Nat} {x : SymbolResult} (hn : stNamed s.regs.st = true)
    (h : symbolResult s.cfg.toParams high low = x) : Returns (.symbol high low) s (.symbol x) :=
  h ▸ returns_of_besideBlock hn (exec_symbol high low s)

/-- Settles O25: the three cases of `symbolResult`. -/
theorem symbolIsClassified : Obligations.SymbolIsClassified := by
  intro high low s hn
  refine ⟨fun hh hl => returns_symbol hn ?bit, fun hh => returns_symbol hn ?e6, fun hh hl => returns_symbol hn ?e7⟩
  case bit => exact (if_neg (Nat.not_le.mpr hh)).trans (if_neg (Nat.not_le.mpr hl))
  case e6 => exact if_pos hh
  case e7 => exact (if_neg (Nat.not_le.mpr hh)).trans (if_pos hl)

/-! ## Validation -/

/-- The checksum of two bytes pairs on their numbers (R152). -/
theorem sum8_fields (f : Frame) : sum8 (frameByte f 0) (frameByte f 1) (frameByte f 2) (frameByte f 3) =
    (f.toNat / 4294967296 + f.toNat / 16777216 % 256 + f.toNat / 65536 % 256 + f.toNat / 256 % 256) % 256 := by
  obtain ⟨h0, h1, h2, h3, _⟩ := frameBytesAndFields f
  rw [sum8, h0, h1, h2, h3]

/-- The decoder's answer, written out on the humidity and temperature fields and the checksum byte (R156, R158). -/
theorem decodeWord_eq {p : Params} {f : Frame} {sum h : Nat} {t : Int}
    (hsum : sum8 (frameByte f 0) (frameByte f 1) (frameByte f 2) (frameByte f 3) = sum)
    (hhum : humRaw (frameByte f 0) (frameByte f 1) = h)
    (htemp : temperatureOf p.signMode (tempRaw (frameByte f 2) (frameByte f 3)) = t) :
    decodeWord p f = if (frameByte f 4).toNat ≠ sum then .e8
      else if p.humMin ≤ h ∧ (h : Int) ≤ p.humMax ∧ p.tempMin ≤ t ∧ t ≤ p.tempMax then .ok h t else .e9 := by
  subst hsum hhum htemp
  simp only [← inRange_iff]
  rfl

/-- The sign-magnitude reading of sixteen bits, in both cases of the sign bit (R154). -/
theorem temperatureOf_signMagnitude {raw : Nat} (hraw : raw < 65536) :
    temperatureOf .signMagnitude raw = if 32768 ≤ raw then 32768 - (raw : Int) else (raw : Int) := by
  split
  · exact temperatureOf_signMagnitude_of_le ‹_› hraw
  · exact temperatureOf_signMagnitude_of_lt (by omega)

/-- Settles O31: the frame's bytes are digits of its number, and the decoder's answer on them is published. -/
theorem validatePublishesTheOutcome : Obligations.ValidatePublishesTheOutcome := by
  rintro s _ _ _ _ _ _ t rfl rfl rfl rfl rfl rfl ht
  obtain ⟨h0, h1, h2, h3, h4, _⟩ := frameBytesAndFields s.regs.frame
  have hhum : humRaw (frameByte s.regs.frame 0) (frameByte s.regs.frame 1) =
      s.regs.frame.toNat / 4294967296 * 256 + s.regs.frame.toNat / 16777216 % 256 := by rw [humRaw, h0, h1]
  have hraw : tempRaw (frameByte s.regs.frame 2) (frameByte s.regs.frame 3) =
      s.regs.frame.toNat / 65536 % 256 * 256 + s.regs.frame.toNat / 256 % 256 := by rw [tempRaw, h2, h3]
  have htemp : temperatureOf s.cfg.signMode (tempRaw (frameByte s.regs.frame 2) (frameByte s.regs.frame 3)) = t := by
    rw [hraw, ht]
    cases s.cfg.signMode with
    | unsigned => rfl
    | signMagnitude => exact temperatureOf_signMagnitude (by omega)
  refine completes_of_tickTo _ s _ ?_
  rw [exec_s9Validate, decodeWord_eq (sum8_fields _) hhum htemp, h4]
  split
  · rfl
  · split <;> rfl

/-- The bytes of a frame that is put together from fields (R57, R77). -/
theorem frameByte_fields (hum temp : BitVec 16) (cksum : BitVec 8) :
    (frameByte (hum ++ temp ++ cksum) 0).toNat = hum.toNat / 256 ∧
    (frameByte (hum ++ temp ++ cksum) 1).toNat = hum.toNat % 256 ∧
    (frameByte (hum ++ temp ++ cksum) 2).toNat = temp.toNat / 256 ∧
    (frameByte (hum ++ temp ++ cksum) 3).toNat = temp.toNat % 256 ∧
    (frameByte (hum ++ temp ++ cksum) 4).toNat = cksum.toNat := by
  obtain ⟨_, _, _, _, _, hhum, htemp⟩ := frameBytesAndFields (hum ++ temp ++ cksum)
  obtain ⟨hfield, tfield, cfield⟩ := Instr.frame40.inj (decodeFrame40_fields hum temp cksum)
  have hsum : (frameByte (hum ++ temp ++ cksum) 4).toNat = cksum.toNat := congrArg BitVec.toNat cfield
  rw [hfield, humRaw] at hhum
  rw [tfield, tempRaw] at htemp
  have h1 := (frameByte (hum ++ temp ++ cksum) 1).isLt
  have h3 := (frameByte (hum ++ temp ++ cksum) 3).isLt
  omega

/-- Settles O32: the decoder's answer on the bytes of the fields, handed back beside the tick. -/
theorem frameWordIsDecoded : Obligations.FrameWordIsDecoded := by
  rintro hum temp cksum s t hn rfl
  obtain ⟨h0, h1, h2, h3, h4⟩ := frameByte_fields hum temp cksum
  have hsum : sum8 (frameByte (hum ++ temp ++ cksum) 0) (frameByte (hum ++ temp ++ cksum) 1)
      (frameByte (hum ++ temp ++ cksum) 2) (frameByte (hum ++ temp ++ cksum) 3) =
      (hum.toNat / 256 + hum.toNat % 256 + temp.toNat / 256 + temp.toNat % 256) % 256 := by rw [sum8, h0, h1, h2, h3]
  have hhum : humRaw (frameByte (hum ++ temp ++ cksum) 0) (frameByte (hum ++ temp ++ cksum) 1) = hum.toNat := by
    rw [humRaw, h0, h1]
    omega
  have htemp : tempRaw (frameByte (hum ++ temp ++ cksum) 2) (frameByte (hum ++ temp ++ cksum) 3) = temp.toNat := by
    rw [tempRaw, h2, h3]
    omega
  have hres := decodeWord_eq (p := s.cfg.toParams) hsum hhum (congrArg (temperatureOf s.cfg.signMode) htemp)
  rw [h4] at hres
  exact hres ▸ returns_of_besideBlock hn (exec_frame40 hum temp cksum s)

end Sys2Proof.Machine
end

section
/-! Runs of many ticks, for the proofs about waits, symbols and attempts: induction along a run, and the registers that a run
reaches, relative to the stream at its start. -/

namespace Sys2Proof.Machine

/-- A predicate that every step of a run carries on holds all along the run. -/
theorem after_induction {P : Nat → State → Prop} {s : State} {n : Nat} (hstart : P 0 s)
    (hstep : ∀ k u, k < n → P k u → ∃ t, step u = .next t ∧ P (k + 1) t) :
    ∀ k ≤ n, ∃ u, after k s = some u ∧ P k u := by
  intro k hk
  induction k with
  | zero => exact ⟨s, after_zero s, hstart⟩
  | succ k ih =>
    obtain ⟨u, hu, hp⟩ := ih (by omega)
    obtain ⟨t, ht, hp'⟩ := hstep k u hk hp
    exact ⟨t, after_succ hu ht, hp'⟩

/-- `rst` and the samples of a tick in a run are the stream's at its start (R31). -/
theorem RunElapsed.ports {n : Nat} {s u : State} (h : RunElapsed n s u) :
    u.ports.rst = (s.streamAt n).rst ∧ u.ports.smp = (s.streamAt n).smp := by
  obtain ⟨_, _, hstream⟩ := h
  rw [(ports_stream u).1, (ports_stream u).2, hstream 0]
  exact ⟨rfl, rfl⟩

/-- After `n` ticks without `rst` the block's registers are `r`. -/
def Reaches (s : State) (n : Nat) (r : Regs) : Prop :=
  ∃ u, after n s = some u ∧ u.regs = r ∧ RunElapsed n s u

theorem reaches_zero (s : State) : Reaches s 0 s.regs := ⟨s, after_zero s, rfl, runElapsed_zero s⟩

/-- A busy block's next tick (R140). -/
theorem Reaches.tick {s : State} {n : Nat} {r : Regs} (h : Reaches s n r) (hl : s.live = true)
    (hr : (s.streamAt n).rst = false) (hn : stNamed r.st = true) (hbusy : r.st ≠ .idle) :
    Reaches s (n + 1) (blockTick s.cfg.toParams (s.streamAt n) r) := by
  obtain ⟨u, hu, rfl, hrun⟩ := h
  have ⟨hcfg, hlive, _⟩ := hrun
  obtain ⟨hrst, hsmp⟩ := hrun.ports
  obtain ⟨t, hstep, hregs, helapsed⟩ := step_regs u (hlive.trans hl) (hrst.trans hr) hn
  refine ⟨t, after_succ hu hstep, ?_, hrun.step helapsed⟩
  rw [hregs, hcfg, blockTick_busy _ _ _ _ hbusy hsmp]

/-- Counting on, on a timer value that may have wrapped (R22; log entry 13). -/
theorem ofNat_add_one (k : Nat) : (BitVec.ofNat 10 k : Timer) + 1 = BitVec.ofNat 10 (k + 1) := by
  apply BitVec.eq_of_toNat_eq
  simp

/-- The registers with the timer at `k`. -/
def Regs.at (r : Regs) (k : Nat) : Regs := { r with tmr := BitVec.ofNat 10 k }

@[simp] theorem at_st (r : Regs) (k : Nat) : (r.at k).st = r.st := rfl

theorem at_tmr {k : Nat} (r : Regs) (hk : k < 1024) : (r.at k).tmr.toNat = k := tmr_ofNat_toNat hk

/-- The registers with the timer where it is. -/
theorem at_self (r : Regs) : r.at r.tmr.toNat = r := by
  simp [Regs.at]

theorem at_succ (r : Regs) (k : Nat) : ({ r.at k with tmr := (r.at k).tmr + 1 } : Regs) = r.at (k + 1) := by
  simp only [Regs.at, ofNat_add_one]

/-- A wait state is busy. -/
theorem ne_idle_of_wait {x : St} (hw : isWait x = true) : x ≠ .idle := by
  rintro rfl
  cases hw

section
variable {c : Config} {i : Input} {r : Regs} {b : Nat}

/-- A poll that is not unanimous, with the timer at `b` (R108). -/
theorem blockTick_at_miss (hw : isWait r.st = true) (htime : b < waitTimeout c.toParams r.st)
    (hpoll : i.smp ≠ Triple.all (waitTarget r.st)) : blockTick c.toParams i (r.at b) = r.at (b + 1) := by
  obtain ⟨_, hmax⟩ := waitTimeout_bounds c r.st hw
  have htmr := at_tmr r (k := b) (by omega)
  rw [← at_succ]
  exact blockTick_miss (r := r.at b) hw (htmr.trans_lt htime) fun hu => hpoll ((unanimous_iff _ _).mp hu)

/-- A unanimous poll with the timer at `b` (R108). -/
theorem blockTick_at_accept (hw : isWait r.st = true) (htime : b < waitTimeout c.toParams r.st)
    (hpoll : i.smp = Triple.all (waitTarget r.st)) :
    blockTick c.toParams i (r.at b) = acceptAction c.toParams (r.at b) := by
  obtain ⟨_, hmax⟩ := waitTimeout_bounds c r.st hw
  have htmr := at_tmr r (k := b) (by omega)
  exact blockTick_accept (r := r.at b) hw (htmr.trans_lt htime) ((unanimous_iff _ _).mpr hpoll)

/-- The timer at the timeout (R108, R204). -/
theorem blockTick_at_timeout (hw : isWait r.st = true) (htime : b = waitTimeout c.toParams r.st) :
    blockTick c.toParams i (r.at b) = { r with err := some (waitError r.st), tmr := 0, st := .s8Restore } := by
  obtain ⟨_, hmax⟩ := waitTimeout_bounds c r.st hw
  have htmr := at_tmr r (k := b) (by omega)
  exact blockTick_timeout (r := r.at b) hw (htime.symm.trans htmr.symm).le

end

section
variable {s : State} {n b m : Nat} {r : Regs} (hl : s.live = true)

include hl

/-- `m` ticks in each of which a busy block only counts on. -/
theorem Reaches.counts (h : Reaches s n (r.at b)) (hreset : NoReset s (n + m)) (hn : stNamed r.st = true)
    (hbusy : r.st ≠ .idle)
    (htick : ∀ k < m, blockTick s.cfg.toParams (s.streamAt (n + k)) (r.at (b + k)) = r.at (b + k + 1)) :
    Reaches s (n + m) (r.at (b + m)) := by
  induction m with
  | zero => exact h
  | succ m ih =>
    have hprev := ih (fun k hk => hreset k (by omega)) fun k hk => htick k (by omega)
    have hnext := hprev.tick hl (hreset _ (by omega)) hn hbusy
    rwa [htick m (by omega)] at hnext

/-- `m` polls of a wait state that are not unanimous, before its timeout (R108). -/
theorem Reaches.misses (h : Reaches s n (r.at b)) (hreset : NoReset s (n + m)) (hw : isWait r.st = true)
    (htime : b + m ≤ waitTimeout s.cfg.toParams r.st)
    (hpoll : ∀ k < m, (s.streamAt (n + k)).smp ≠ Triple.all (waitTarget r.st)) : Reaches s (n + m) (r.at (b + m)) :=
  h.counts hl hreset (stNamed_of_wait hw) (ne_idle_of_wait hw) fun k hk =>
    blockTick_at_miss hw (by omega) (hpoll k hk)

/-- A unanimous poll of a wait state, before its timeout (R108). -/
theorem Reaches.accepts (h : Reaches s n (r.at b)) (hr : (s.streamAt n).rst = false) (hw : isWait r.st = true)
    (htime : b < waitTimeout s.cfg.toParams r.st) (hpoll : (s.streamAt n).smp = Triple.all (waitTarget r.st)) :
    Reaches s (n + 1) (acceptAction s.cfg.toParams (r.at b)) := by
  have hnext := h.tick hl hr (stNamed_of_wait hw) (ne_idle_of_wait hw)
  rwa [blockTick_at_accept hw htime hpoll] at hnext

/-- The timeout of a wait state (R108, R204). -/
theorem Reaches.timesOut (h : Reaches s n (r.at b)) (hr : (s.streamAt n).rst = false) (hw : isWait r.st = true)
    (htime : b = waitTimeout s.cfg.toParams r.st) :
    Reaches s (n + 1) { r with err := some (waitError r.st), tmr := 0, st := .s8Restore } := by
  have hnext := h.tick hl hr (stNamed_of_wait hw) (ne_idle_of_wait hw)
  rwa [blockTick_at_timeout hw htime] at hnext

/-- `S8_RESTORE` with an error pending (R135). -/
theorem Reaches.fails (h : Reaches s n r) (hr : (s.streamAt n).rst = false) (hst : r.st = .s8Restore) (he : r.err ≠ none) :
    Reaches s (n + 1) { r with done := true, st := .idle } := by
  have hnext := h.tick hl hr (by rw [hst]; rfl) (by simp [hst])
  rwa [blockTick_s8_failed hst he] at hnext

/-- `S8_RESTORE` without one (R135). -/
theorem Reaches.validates (h : Reaches s n r) (hr : (s.streamAt n).rst = false) (hst : r.st = .s8Restore)
    (he : r.err = none) : Reaches s (n + 1) { r with st := .s9Validate } := by
  have hnext := h.tick hl hr (by rw [hst]; rfl) (by simp [hst])
  rwa [blockTick_s8_good hst he] at hnext

/-- `S9_VALIDATE` (R150). -/
theorem Reaches.publishes {x : FrameResult} (h : Reaches s n r) (hr : (s.streamAt n).rst = false) (hst : r.st = .s9Validate)
    (hres : decodeWord s.cfg.toParams r.frame = x) : Reaches s (n + 1) (publish r x) := by
  have hnext := h.tick hl hr (by rw [hst]; rfl) (by simp [hst])
  rwa [blockTick_s9Validate hst, hres] at hnext

/-- A timed state, from its first tick to the first tick of its successor (R123, R124). -/
theorem Reaches.timed {len : Nat} {x : St} (h : Reaches s n (r.at 0)) (hreset : NoReset s (n + len))
    (hn : stNamed r.st = true) (hbusy : r.st ≠ .idle) (hmin : 1 ≤ len) (hmax : len ≤ 1024)
    (htick : ∀ i k, blockTick s.cfg.toParams i (r.at k) = timedStep (r.at k) len x) :
    Reaches s (n + len) { r with tmr := 0, st := x } := by
  have htmr (k : Nat) (hk : k < len) : (r.at k).tmr.toNat = k := at_tmr r (by omega)
  have hlast : Reaches s (n + (len - 1)) (r.at (0 + (len - 1))) := by
    refine h.counts hl (fun k hk => hreset k (by omega)) hn hbusy fun k hk => ?_
    rw [htick, timedStep_before _ (by rw [htmr _ (by omega)]; omega), at_succ]
  have hnext := hlast.tick hl (hreset _ (by omega)) hn hbusy
  rw [htick, timedStep_end _ (by rw [htmr _ (by omega)]; omega)] at hnext
  have hticks : n + (len - 1) + 1 = n + len := by omega
  rwa [hticks] at hnext

end

end Sys2Proof.Machine
end

section
/-! PROOFS of the family 40_edge_waiter.md: the Edge Waiter as a function (R104), as the wait states run tick by tick, and as the
call that a wait state makes (R103); the failure exit (R136). -/

namespace Sys2Proof.Machine

/-! ## The function (R104) -/

/-- From elapsed time `b` on, the result is the first unanimous poll of the `n` that are left. -/
theorem waitFrom_elapsed_iff (l : Level) (samples : Nat → Triple) (n b e : Nat) :
    waitFrom l samples n b = .elapsed e ↔
      b ≤ e ∧ e < b + n ∧ samples e = Triple.all l ∧ ∀ k, b ≤ k → k < e → samples k ≠ Triple.all l := by
  induction n generalizing b with
  | zero => exact iff_of_false (by simp [waitFrom]) fun ⟨hle, hlt, _⟩ => by omega
  | succ n ih =>
    unfold waitFrom
    split
    case isTrue hu =>
      have hb := (unanimous_iff _ _).mp hu
      rw [WaitResult.elapsed.injEq]
      constructor
      · rintro rfl
        exact ⟨le_rfl, by omega, hb, fun k hle hlt => by omega⟩
      · rintro ⟨hle, _, _, hfirst⟩
        by_contra hne
        exact hfirst b le_rfl (by omega) hb
    case isFalse hu =>
      have hb : samples b ≠ Triple.all l := fun h => hu ((unanimous_iff _ _).mpr h)
      rw [ih]
      constructor
      · rintro ⟨hle, hlt, he, hfirst⟩
        refine ⟨by omega, by omega, he, fun k hbk hke => ?_⟩
        rcases hbk.eq_or_lt with rfl | hlt
        · exact hb
        · exact hfirst k hlt hke
      · rintro ⟨hle, hlt, he, hfirst⟩
        have hne : b ≠ e := by
          rintro rfl
          exact hb he
        exact ⟨by omega, by omega, he, fun k hbk => hfirst k (by omega)⟩

/-- From elapsed time `b` on, the timeout is the answer to `n` polls of which none is unanimous. -/
theorem waitFrom_timeout_iff (l : Level) (samples : Nat → Triple) (n b : Nat) :
    waitFrom l samples n b = .timeout ↔ ∀ k, b ≤ k → k < b + n → samples k ≠ Triple.all l := by
  induction n generalizing b with
  | zero => exact iff_of_true rfl fun k hle hlt => by omega
  | succ n ih =>
    unfold waitFrom
    split
    case isTrue hu =>
      exact iff_of_false (by simp) fun h => h b le_rfl (by omega) ((unanimous_iff _ _).mp hu)
    case isFalse hu =>
      have hb : samples b ≠ Triple.all l := fun h => hu ((unanimous_iff _ _).mpr h)
      rw [ih]
      constructor
      · intro h k hle hlt
        rcases hle.eq_or_lt with rfl | hlt'
        · exact hb
        · exact h k hlt' (by omega)
      · intro h k hle hlt
        exact h k (by omega) (by omega)

/-- Settles O21: the polls from elapsed time 0 on. -/
theorem waitReturnsTheFirstUnanimousPoll : Obligations.WaitReturnsTheFirstUnanimousPoll := by
  intro l n samples
  refine ⟨fun e => ?_, ?_⟩
  · rw [waitForLevel, waitFrom_elapsed_iff]
    simp
  · rw [waitForLevel, waitFrom_timeout_iff]
    simp

/-! ## The wait states (R102, R108) -/

/-- Settles O24: up to the first unanimous poll, or to the timeout, the block only counts on. -/
theorem waitStatesAgreeWithTheWaitFunction : Obligations.WaitStatesAgreeWithTheWaitFunction := by
  intro s hl hw htmr hreset
  have hstart : Reaches s 0 (s.regs.at s.regs.tmr.toNat) := by
    rw [at_self]
    exact reaches_zero s
  refine ⟨fun e he => ?elapsed, fun hto => ?timeout⟩
  case elapsed =>
    obtain ⟨hle, hlt, hpoll, hfirst⟩ := (waitFrom_elapsed_iff _ _ _ _ _).mp he
    have hrun := hstart.misses (m := e - s.regs.tmr.toNat) hl (fun k hk => hreset k (by omega)) hw (by omega) fun k hk => by
      have h := hfirst (s.regs.tmr.toNat + k) (by omega) (by omega)
      rwa [Nat.add_sub_cancel_left, ← Nat.zero_add k] at h
    rw [Nat.zero_add, Nat.add_sub_cancel' hle] at hrun
    obtain ⟨u, hu, hregs, helapsed⟩ := hrun
    exact ⟨u, hu, hregs, helapsed.ports.2.trans hpoll⟩
  case timeout =>
    have hmiss := (waitFrom_timeout_iff _ _ _ _).mp hto
    have hrun := hstart.misses (m := waitTimeout s.cfg.toParams s.regs.st - s.regs.tmr.toNat) hl
      (fun k hk => hreset k (by omega)) hw (by omega) fun k hk => by
        have h := hmiss (s.regs.tmr.toNat + k) (by omega) (by omega)
        rwa [Nat.add_sub_cancel_left, ← Nat.zero_add k] at h
    rw [Nat.add_sub_cancel' htmr, Nat.zero_add] at hrun
    obtain ⟨u, hu, hregs, _⟩ := hrun.timesOut hl (hreset _ (by omega)) hw rfl
    exact ⟨u, hu, hregs⟩

/-! ## The call (R103) -/

/-- One tick of a pending call in the wait state that makes it: the wait's tick, and its answer if it ends (R103, R108). -/
theorem step_waitCall {s : State} (hl : s.live = true) (hr : s.ports.rst = false) (hw : isWait s.regs.st = true)
    (hs : s.session = none)
    (hc : s.call = some (.wait (waitTarget s.regs.st) (waitTimeout s.cfg.toParams s.regs.st))) :
    step s = .next ((finishTick s (blockTick s.cfg.toParams s.ports s.regs)).answerWait
      (waitAnswer (waitTarget s.regs.st) (waitTimeout s.cfg.toParams s.regs.st) s.regs.tmr.toNat s.ports.smp)) := by
  have hn := stNamed_of_wait hw
  have hnow := callNow_of_fits hs hn hc ((callFits_wait_iff _ _ _ _).mpr ⟨hw, rfl, rfl⟩)
  rw [step_named s hl hr hn]
  simp only [State.besideTick, hnow]

/-- `k` ticks after a wait state made its call, with the timer then at `b`: the call is still pending and the timer has counted
on, nothing else has changed. -/
def WaitPending (s : State) (b k : Nat) (u : State) : Prop :=
  u.regs = s.regs.at (b + k) ∧ u.session = none ∧ u.call = s.call ∧ u.ret = s.ret ∧ RunElapsed k s u

section
variable {s u : State} {b k : Nat} (hl : s.live = true) (hw : isWait s.regs.st = true)
  (hc : s.call = some (.wait (waitTarget s.regs.st) (waitTimeout s.cfg.toParams s.regs.st)))

include hl hw hc

/-- The step of a pending call, in terms of the registers and the stream at the call. -/
theorem WaitPending.step (h : WaitPending s b k u) (hr : (s.streamAt k).rst = false)
    (htime : b + k ≤ waitTimeout s.cfg.toParams s.regs.st) :
    step u = .next ((finishTick u (blockTick s.cfg.toParams u.ports (s.regs.at (b + k)))).answerWait
      (waitAnswer (waitTarget s.regs.st) (waitTimeout s.cfg.toParams s.regs.st) (b + k) (s.streamAt k).smp)) := by
  obtain ⟨hregs, hsess, hcall, _, hrun⟩ := h
  have ⟨hcfg, hlive, _⟩ := hrun
  obtain ⟨hrst, hsmp⟩ := hrun.ports
  obtain ⟨_, hmax⟩ := waitTimeout_bounds s.cfg s.regs.st hw
  have hst : u.regs.st = s.regs.st := by rw [hregs]; rfl
  have htmr : u.regs.tmr.toNat = b + k := by rw [hregs]; exact at_tmr _ (by omega)
  rw [step_waitCall (hlive.trans hl) (hrst.trans hr) (hst ▸ hw) hsess (by rw [hcall, hc, hst, hcfg]), hsmp, htmr, hst, hcfg,
    hregs]

/-- A poll that is not unanimous leaves the call pending. -/
theorem WaitPending.miss (h : WaitPending s b k u) (hr : (s.streamAt k).rst = false)
    (htime : b + k < waitTimeout s.cfg.toParams s.regs.st)
    (hpoll : (s.streamAt k).smp ≠ Triple.all (waitTarget s.regs.st)) :
    ∃ t, Machine.step u = .next t ∧ WaitPending s b (k + 1) t := by
  have hstep := h.step hl hw hc hr htime.le
  obtain ⟨_, hsess, hcall, hret, hrun⟩ := h
  have hu : ¬ unanimous (s.streamAt k).smp (waitTarget s.regs.st) = true := fun hu => hpoll ((unanimous_iff _ _).mp hu)
  have hanswer : waitAnswer (waitTarget s.regs.st) (waitTimeout s.cfg.toParams s.regs.st) (b + k) (s.streamAt k).smp = none :=
    (if_neg (Nat.not_le.mpr htime)).trans (if_neg hu)
  have hhost : u.host = none := by simp [State.host, hsess]
  rw [hanswer, blockTick_at_miss hw htime (by rwa [hrun.ports.2])] at hstep
  exact ⟨_, hstep, rfl, by simp [hhost], hcall, by simp [hhost, hret], hrun.step ⟨rfl, rfl, rfl, rfl⟩⟩

/-- A unanimous poll ends the call with the elapsed time, and the wait with its accept action. -/
theorem WaitPending.accept (h : WaitPending s b k u) (hr : (s.streamAt k).rst = false)
    (htime : b + k < waitTimeout s.cfg.toParams s.regs.st)
    (hpoll : (s.streamAt k).smp = Triple.all (waitTarget s.regs.st)) :
    ∃ t, Machine.step u = .next t ∧ t.ret = some (.waited (.elapsed (b + k))) ∧ t.call = none ∧
      t.regs = acceptAction s.cfg.toParams (s.regs.at (b + k)) := by
  have hstep := h.step hl hw hc hr htime.le
  obtain ⟨_, _, _, _, hrun⟩ := h
  have hu := (unanimous_iff _ _).mpr hpoll
  have hanswer : waitAnswer (waitTarget s.regs.st) (waitTimeout s.cfg.toParams s.regs.st) (b + k) (s.streamAt k).smp =
      some (.elapsed (b + k)) := (if_neg (Nat.not_le.mpr htime)).trans (if_pos hu)
  rw [hanswer, blockTick_at_accept hw htime (by rwa [hrun.ports.2])] at hstep
  exact ⟨_, hstep, rfl, rfl, rfl⟩

/-- At the timeout the call ends without a poll, and the wait with its error. -/
theorem WaitPending.timeout (h : WaitPending s b k u) (hr : (s.streamAt k).rst = false)
    (htime : b + k = waitTimeout s.cfg.toParams s.regs.st) :
    ∃ t, Machine.step u = .next t ∧ t.ret = some (.waited .timeout) ∧ t.call = none ∧
      t.regs = { s.regs with err := some (waitError s.regs.st), tmr := 0, st := .s8Restore } := by
  have hstep := h.step hl hw hc hr htime.le
  have hanswer : waitAnswer (waitTarget s.regs.st) (waitTimeout s.cfg.toParams s.regs.st) (b + k) (s.streamAt k).smp =
      some .timeout := if_pos htime.ge
  rw [hanswer, blockTick_at_timeout hw htime] at hstep
  exact ⟨_, hstep, rfl, rfl, rfl⟩

/-- The call stays pending through polls that are not unanimous. -/
theorem waitPending_misses (hb : b = s.regs.tmr.toNat) (hs : s.session = none) {m : Nat} (hreset : NoReset s m)
    (htime : b + m ≤ waitTimeout s.cfg.toParams s.regs.st)
    (hpoll : ∀ k < m, (s.streamAt k).smp ≠ Triple.all (waitTarget s.regs.st)) :
    ∃ v, after m s = some v ∧ WaitPending s b m v := by
  have hstart : WaitPending s b 0 s := ⟨by rw [hb, Nat.add_zero, at_self], hs, rfl, rfl, runElapsed_zero s⟩
  exact after_induction hstart
    (fun k v hk hv => hv.miss hl hw hc (hreset k hk) (by omega) (hpoll k hk)) m le_rfl

end

/-- Settles O23: the call stays pending up to the first unanimous poll, or to the timeout, and ends in the tick after. -/
theorem waitCallRunsToItsResult : Obligations.WaitCallRunsToItsResult := by
  rintro _ _ b s hl hw hs rfl rfl hc hb hbn hreset
  refine ⟨fun e hbe hen hpoll hfirst => ?elapsed, fun hmiss => ?timeout⟩
  case elapsed =>
    obtain ⟨v, hv, hpend⟩ := waitPending_misses hl hw hc hb hs (m := e - b) (fun k hk => hreset k (by omega)) (by omega) hfirst
    obtain ⟨t, ht, hret, hcall, hregs⟩ := hpend.accept hl hw hc (hreset _ (by omega)) (by omega) hpoll
    rw [Nat.add_sub_cancel' hbe] at hret hregs
    exact ⟨t, after_succ hv ht, hret, hcall, hregs⟩
  case timeout =>
    obtain ⟨v, hv, hpend⟩ := waitPending_misses hl hw hc hb hs (m := waitTimeout s.cfg.toParams s.regs.st - b)
      (fun k hk => hreset k (by omega)) (by omega) hmiss
    obtain ⟨t, ht, hend⟩ := hpend.timeout hl hw hc (hreset _ (by omega)) (by omega)
    obtain ⟨hregs, _, hcall, hret, _⟩ := hpend
    rw [Nat.add_sub_cancel' hbn] at hregs
    exact ⟨⟨v, hv, hcall.trans hc, hret, hregs⟩, t, after_succ hv ht, hend⟩

/-! ## The failure exit (R136) -/

/-- The registers after an attempt has ended with a timeout show its code and no reading (R38, R136). -/
theorem outcome_of_timeout {p : Params} {r : Regs} (hi : RegsInv p r) (hbusy : r.st ≠ .idle) (k : ErrName) :
    ({ r with err := some k, tmr := 0, done := true, st := .idle } : Regs).outcome = some (.err k) := by
  obtain ⟨_, hvalid, _⟩ := hi.busy hbusy
  exact outcome_of_error _ k rfl hvalid rfl

/-- Settles O37: the tick of the timeout, then `S8_RESTORE`'s. -/
theorem failureExitTakesTwoTicks : Obligations.FailureExitTakesTwoTicks := by
  intro s hl hi hw htime hreset
  have hbusy := ne_idle_of_wait hw
  have hfail := (reaches_zero s).tick hl (hreset 0 (by omega)) hi.st_named hbusy
  rw [blockTick_timeout hw htime] at hfail
  have hend := hfail.fails hl (hreset 1 (by omega)) rfl (by simp)
  obtain ⟨u, hu, huregs, _⟩ := hfail
  obtain ⟨v, hv, hvregs, _⟩ := hend
  obtain ⟨_, _, hhum, htemp⟩ := hi.busy hbusy
  refine ⟨u, v, hu, ?_⟩
  rw [huregs, hvregs]
  exact ⟨rfl, rfl, rfl, rfl, rfl, hv, outcome_of_timeout hi hbusy _, rfl, hhum, htemp⟩

end Sys2Proof.Machine
end

section
/-! PROOFS about symbols on the line (R75, R132 to R134): one symbol, and forty of them up to the outcome of the attempt. -/

namespace Sys2Proof.Machine

/-! ## One symbol -/

/-- A line at one level is not unanimous at the other (R101). -/
theorem LineAt.ne {s : State} {n m k : Nat} {l l' : Level} (h : LineAt s n m l) (hk : k < m) (hl : l ≠ l') :
    (s.streamAt (n + k)).smp ≠ Triple.all l' := by
  rw [h k hk]
  exact fun heq => hl (Triple.mk.inj heq).1

/-- A symbol that is read as a bit has phases within their timeouts, and the bit is the HIGH phase's (R75). -/
theorem symbolResult_eq_bit {p : Params} {high low : Nat} {b : Bool} (h : symbolResult p high low = .bit b) :
    high < p.toBitLow ∧ low < p.toBitHigh ∧ b = bitOfElapsed p high := by
  rcases symbolResult_cases p high low with ⟨_, heq⟩ | ⟨_, _, heq⟩ | ⟨hh, hl, heq⟩
  · cases h.symm.trans heq
  · cases h.symm.trans heq
  · exact ⟨hh, hl, SymbolResult.bit.inj (h.symm.trans heq)⟩

/-- A symbol of `high` and `low` ticks on the line from tick `n` on, of whose HIGH phase one tick has gone: what the block in
`B_LO` sees of it, up to the first HIGH tick after it (R75, R132). -/
structure SymbolAt (s : State) (n high low : Nat) (b : Bool) : Prop where
  high_pos : 1 ≤ high
  low_pos : 1 ≤ low
  result : symbolResult s.cfg.toParams high low = .bit b
  highPhase : LineAt s n (high - 1) .high
  lowPhase : LineAt s (n + (high - 1)) low .low
  nextHigh : LineAt s (n + (high - 1 + low)) 1 .high

/-- `B_LO` sees the HIGH phase, whose end it classifies; `B_HI` sees the LOW phase, at whose end the bit is counted (R133,
R134). -/
theorem Reaches.symbol {s : State} {n high low : Nat} {b : Bool} {r : Regs} (h : Reaches s n r) (hl : s.live = true)
    (hst : r.st = .bLo) (htmr : r.tmr = 1) (hsym : SymbolAt s n high low b) (hreset : NoReset s (n + (high + low))) :
    Reaches s (n + (high + low)) (countBit (captureBit s.cfg.toParams r high)) := by
  obtain ⟨hhigh, hlow, hres, hHigh, hLow, hNext⟩ := hsym
  obtain ⟨htoLow, htoHigh, _⟩ := symbolResult_eq_bit hres
  obtain ⟨_, hmax⟩ := waitTimeout_bounds s.cfg .bLo rfl
  have hmax : s.cfg.toBitLow ≤ 1023 := hmax
  have hw : isWait r.st = true := by rw [hst]; rfl
  have htime : waitTimeout s.cfg.toParams r.st = s.cfg.toBitLow := by rw [hst]; rfl
  have htarget : waitTarget r.st = .low := by rw [hst]; rfl
  have hone : r.at 1 = r := by
    have htmr' : BitVec.ofNat 10 1 = r.tmr := htmr.symm
    rw [Regs.at, htmr']
  have hwaited : Reaches s (n + (high - 1)) (r.at high) := by
    have h1 := Reaches.misses (r := r) (b := 1) (m := high - 1) hl (hone.symm ▸ h) (fun k hk => hreset k (by omega)) hw
      (by omega) fun k hk => hHigh.ne hk (by rw [htarget]; decide)
    rwa [Nat.add_sub_cancel' hhigh] at h1
  have hcaptured : Reaches s (n + (high - 1) + 1) (captureBit s.cfg.toParams r high) := by
    have h2 := hwaited.accepts hl (hreset _ (by omega)) hw (by omega) (by rw [htarget]; exact hLow 0 hlow)
    have haction : acceptAction s.cfg.toParams (r.at high) = captureBit s.cfg.toParams r high := by
      simp only [acceptAction, at_st, hst]
      rw [at_tmr r (by omega)]
      rfl
    rwa [haction] at h2
  have hlowWaited : Reaches s (n + (high - 1) + 1 + (low - 1)) ((captureBit s.cfg.toParams r high).at low) := by
    have h3 := Reaches.misses (r := captureBit s.cfg.toParams r high) (b := 1) (m := low - 1) hl hcaptured
      (fun k hk => hreset k (by omega)) rfl (by rw [Nat.add_sub_cancel' hlow]; exact htoHigh.le) fun k hk => by
        have h := hLow.ne (k := 1 + k) (by omega) (show Level.low ≠ .high by decide)
        rwa [← Nat.add_assoc] at h
    rwa [Nat.add_sub_cancel' hlow] at h3
  have hcounted := hlowWaited.accepts hl (hreset _ (by omega)) rfl htoHigh (by
    have h := hNext 0 Nat.one_pos
    rwa [show n + (high - 1 + low) + 0 = n + (high - 1) + 1 + (low - 1) by omega] at h)
  rwa [show n + (high - 1) + 1 + (low - 1) + 1 = n + (high + low) by omega] at hcounted

/-! ## Forty symbols -/

/-- The registers of a block that has read `k` of a row of symbols, before the fortieth: the bits are in `frame`, their number in
`bitcnt`. -/
def symbolsRead (p : Params) (r : Regs) (high : Nat → Nat) (k : Nat) : Regs :=
  { r with frame := (((List.range k).map high).foldl (captureBit p) r).frame, bitcnt := BitVec.ofNat 6 k }

/-- The next symbol's bit is shifted in. -/
theorem captureBit_symbolsRead (p : Params) (r : Regs) (high : Nat → Nat) (k : Nat) :
    captureBit p (symbolsRead p r high k) (high k) =
      { symbolsRead p r high (k + 1) with bitcnt := BitVec.ofNat 6 k, tmr := 1, st := .bHi } := by
  simp only [symbolsRead, List.range_succ, List.map_append, List.map_singleton, List.foldl_concat]
  rfl

/-- The count of the next symbol, before the fortieth (R134). -/
theorem countBit_symbolsRead {p : Params} {r : Regs} (high : Nat → Nat) {k : Nat} (hk : k < 39) (hst : r.st = .bLo)
    (htmr : r.tmr = 1) :
    countBit (captureBit p (symbolsRead p r high k) (high k)) = symbolsRead p r high (k + 1) := by
  rw [captureBit_symbolsRead, countBit_eq, if_neg (by simp; omega)]
  have hcount : BitVec.ofNat 6 k + 1 = BitVec.ofNat 6 (k + 1) := by
    apply BitVec.eq_of_toNat_eq
    simp
  simp only [hcount, symbolsRead, hst, htmr]

/-- The count of the fortieth symbol (R134). -/
theorem countBit_symbolsRead_last (p : Params) (r : Regs) (high : Nat → Nat) :
    countBit (captureBit p (symbolsRead p r high 39) (high 39)) =
      { r with frame := (symbolsRead p r high 40).frame, bitcnt := 40, tmr := 0, st := .s8Restore } := by
  rw [captureBit_symbolsRead, countBit_eq, if_pos (show (BitVec.ofNat 6 39).toNat = 39 by decide)]
  rfl

/-- The k-th bit read lies at `frame[39 − k]` (R24, R56). -/
theorem symbolsRead_frame (p : Params) (r : Regs) (high : Nat → Nat) {k : Nat} (hk : k < 40) :
    (symbolsRead p r high 40).frame.getLsbD (39 - k) = bitOfElapsed p (high k) := by
  have hlen : ((List.range 40).map high).length = 40 := by simp
  have h := foldl_captureBit_getLsbD p r ((List.range 40).map high) hlen.le k (by rw [hlen]; exact hk)
  simp only [hlen, List.getElem_map, List.getElem_range] at h
  exact h

/-- The ticks up to a symbol end before those of the whole row do. -/
theorem symbolStart_le (high low : Nat → Nat) {j k : Nat} (h : j ≤ k) : symbolStart high low j ≤ symbolStart high low k := by
  induction h with
  | refl => exact le_rfl
  | step _ ih => exact ih.trans (Nat.le_add_right _ _)

section
variable {s : State} {high low : Nat → Nat} {bit : Nat → Bool} (hl : s.live = true) (hst : s.regs.st = .bLo)
  (htmr : s.regs.tmr = 1) (hbits : s.regs.bitcnt = 0) (hreset : NoReset s (symbolStart high low 40))
  (hsym : ∀ k < 40, SymbolAt s (symbolStart high low k) (high k) (low k) (bit k))

include hl hst htmr hbits hreset hsym

/-- The first `k` symbols are read in their ticks. -/
theorem reaches_symbolsRead {k : Nat} (hk : k ≤ 39) :
    Reaches s (symbolStart high low k) (symbolsRead s.cfg.toParams s.regs high k) := by
  induction k with
  | zero =>
    have hnone : symbolsRead s.cfg.toParams s.regs high 0 = s.regs := by
      have hzero : BitVec.ofNat 6 0 = s.regs.bitcnt := hbits.symm
      simp only [symbolsRead, hzero, List.range_zero, List.map_nil, List.foldl_nil]
    rw [hnone]
    exact reaches_zero s
  | succ k ih =>
    have hnext := (ih (by omega)).symbol hl hst htmr (hsym k (by omega)) fun j hj =>
      hreset j (hj.trans_le (symbolStart_le high low (j := k + 1) (by omega)))
    rwa [countBit_symbolsRead high (by omega) hst htmr] at hnext

/-- The fortieth symbol ends the capture. -/
theorem reaches_fortySymbols :
    Reaches s (symbolStart high low 40)
      { s.regs with
        frame := (symbolsRead s.cfg.toParams s.regs high 40).frame, bitcnt := 40, tmr := 0, st := .s8Restore } := by
  have h := (reaches_symbolsRead hl hst htmr hbits hreset hsym le_rfl).symbol hl hst htmr (hsym 39 (by omega)) hreset
  rwa [countBit_symbolsRead_last] at h

end

/-- Settles O26: `Reaches.symbol` for one symbol; for forty, the row of them and the two ticks after it. -/
theorem symbolOnTheLineIsCaptured : Obligations.SymbolOnTheLineIsCaptured := by
  refine ⟨fun s high low b hl hst htmr hbits hhigh hlow hres hreset hHigh hLow hNext => ?one,
    fun s high low bit n hl hi hst htmr hbits hn hreset hsym => ?forty⟩
  case one =>
    have hsym : SymbolAt s 0 high low b := ⟨hhigh, hlow, hres, hHigh, by simpa using hLow, by simpa using hNext⟩
    have hend := (reaches_zero s).symbol hl hst htmr hsym (by simpa using hreset)
    rw [Nat.zero_add] at hend
    obtain ⟨u, hu, hregs, _⟩ := hend
    obtain ⟨_, _, rfl⟩ := symbolResult_eq_bit hres
    refine ⟨u, hu, hregs.trans ?_⟩
    rw [captureBit_eq]
    simp only [bitOfElapsed, decide_eq_true_eq]
    rcases countBit_cases { s.regs with
      frame := BitVec.ofNat 40 (2 * s.regs.frame.toNat + if s.cfg.thBit ≤ high then 1 else 0), tmr := 1, st := .bHi } with
      ⟨hlast, heq⟩ | ⟨hmore, heq⟩ <;> rw [heq]
    · simp [Nat.succ_injective hlast]
    · simp [show s.regs.bitcnt.toNat ≠ 39 from fun h => hmore (congrArg (· + 1) h)]
  case forty =>
    subst hn
    have hrow : ∀ k < 40, SymbolAt s (symbolStart high low k) (high k) (low k) (bit k) := fun k hk =>
      have ⟨h1, h2, h3, h4, h5, h6⟩ := hsym k hk
      ⟨h1, h2, h3, h4, h5, h6⟩
    have hun := hi.unfinished_of (by simp [hst]) (by simp [hst])
    have hfull := reaches_fortySymbols hl hst htmr hbits (fun k hk => hreset k (by omega)) hrow
    have hrestored := hfull.validates hl (hreset _ (by omega)) rfl hun.err
    have hdone := hrestored.publishes hl (hreset _ (by omega)) rfl
      (x := decodeWord s.cfg.toParams (symbolsRead s.cfg.toParams s.regs high 40).frame) rfl
    obtain ⟨u, hu, huregs, _⟩ := hfull
    obtain ⟨v, hv, hvregs, _⟩ := hrestored
    obtain ⟨w, hw, hwregs, _⟩ := hdone
    refine ⟨(symbolsRead s.cfg.toParams s.regs high 40).frame, u, v, w, fun k hk => ?_, hu, huregs, hv, hvregs, hw, ?_⟩
    · obtain ⟨_, _, hres, _⟩ := hsym k hk
      obtain ⟨_, _, hbit⟩ := symbolResult_eq_bit hres
      rw [symbolsRead_frame _ _ _ hk, hbit]
    · rw [hwregs]
      refine ⟨by simp, by simp, ?_⟩
      cases decodeWord s.cfg.toParams (symbolsRead s.cfg.toParams s.regs high 40).frame with
      | ok h t => exact outcome_of_valid _ rfl rfl
      | e8 => exact outcome_of_error _ _ rfl hun.valid rfl
      | e9 => exact outcome_of_error _ _ rfl hun.valid rfl

end Sys2Proof.Machine
end

section
/-! PROOFS of the family 70_reset_and_hazards.md: every busy tick brings the end of the attempt nearer (R232), so every attempt
ends; and program P3, an attempt without a sensor (R194). -/

namespace Sys2Proof.Machine

/-! ## The measure falls with every kind of tick -/

section
variable {c : Config} {i : Input} {r : Regs}

/-- Counting on takes one tick from what is left. -/
theorem ticksLeft_count (hcounts : Counts r.st) (hlt : r.tmr.toNat < timerLimit c.toParams r.st)
    (hmax : r.tmr.toNat < 1023) :
    ticksLeft c.toParams { r with tmr := r.tmr + 1 } < ticksLeft c.toParams r := by
  have htmr := tmr_succ r.tmr hmax
  rcases hcounts with hst | hst | hw
  · simp only [hst, timerLimit] at hlt
    simp only [ticksLeft, hst, htmr]
    omega
  · simp only [hst, timerLimit] at hlt
    simp only [ticksLeft, hst, htmr]
    omega
  · rw [timerLimit_wait hw] at hlt
    cases hst : r.st <;> rw [hst] at hw <;> try cases hw
    all_goals
      simp only [hst, waitTimeout] at hlt
      simp only [ticksLeft, hst, htmr]
      omega

/-- A driving state's last tick is one of those it had left. -/
theorem ticksLeft_drive {x : St} (hi : RegsInv c.toParams r) (h : DrivesTo r x) :
    ticksLeft c.toParams { r with tmr := 0, st := x } < ticksLeft c.toParams r := by
  have hlimit := hi.timer_bound
  have hb := Config.bounds c
  rcases h with ⟨hst, rfl⟩ | ⟨hst, rfl⟩ | ⟨hst, rfl⟩ <;> simp only [hst, timerLimit] at hlimit <;>
    simp only [ticksLeft, hst] <;> omega

/-- Forty bits are one and thirty-nine. -/
theorem fortyBits_eq (p : Params) :
    nBits * bitTicks p = (nBits - 1) * bitTicks p + ((p.toBitLow - 1) + (p.toBitHigh - 1)) := Nat.succ_mul _ _

/-- A handshake wait that accepts had at least the tick of the accept left, and the next one's clock is at 1 (R107(b)). -/
theorem ticksLeft_chain {x : St} (htime : r.tmr.toNat < waitTimeout c.toParams r.st) (h : ChainsTo r x) :
    ticksLeft c.toParams (chainTo r x) < ticksLeft c.toParams r := by
  have hb := Config.bounds c
  have hbits := fortyBits_eq c.toParams
  have hmore : (nBits - 1 - r.bitcnt.toNat) * bitTicks c.toParams ≤ (nBits - 1) * bitTicks c.toParams :=
    Nat.mul_le_mul_right _ (Nat.sub_le _ _)
  have hone : (1 : Timer).toNat = 1 := rfl
  have hcold : startBitTicks c.toParams true = (c.toSbLow - 1) + (c.toSbHigh - 1) := rfl
  have hwarm : startBitTicks c.toParams false = 0 := rfl
  rcases h with ⟨hst, rfl⟩ | ⟨hst, rfl⟩ | ⟨hst, hc, rfl⟩ | ⟨hst, hc, rfl⟩ | ⟨hst, rfl⟩ | ⟨hst, rfl⟩
  case inl | inr.inl | inr.inr.inr.inr.inl | inr.inr.inr.inr.inr =>
    simp only [hst, waitTimeout] at htime
    simp only [ticksLeft, chainTo, hst, hone]
    omega
  all_goals
    simp only [hst, waitTimeout] at htime
    simp only [ticksLeft, chainTo, hst, hone, hc]
    omega

/-- A wait state has the two last ticks of an attempt to come after its own. -/
theorem two_le_ticksLeft (hw : isWait r.st = true) : 2 ≤ ticksLeft c.toParams r := by
  cases hst : r.st <;> rw [hst] at hw <;> try cases hw
  all_goals
    simp only [ticksLeft, hst]
    omega

/-- A captured bit's LOW phase begins in the tick of the capture (R133). -/
theorem ticksLeft_capture (hst : r.st = .bLo) (htime : r.tmr.toNat < waitTimeout c.toParams r.st) (e : Nat) :
    ticksLeft c.toParams (captureBit c.toParams r e) < ticksLeft c.toParams r := by
  have hb := Config.bounds c
  have hone : (1 : Timer).toNat = 1 := rfl
  simp only [hst, waitTimeout] at htime
  simp only [ticksLeft, captureBit, hst, hone]
  omega

/-- A counted bit takes a bit's ticks from what is left, or ends the capture (R134). -/
theorem ticksLeft_countBit (hi : RegsInv c.toParams r) (hst : r.st = .bHi)
    (htime : r.tmr.toNat < waitTimeout c.toParams r.st) :
    ticksLeft c.toParams (countBit r) < ticksLeft c.toParams r := by
  have hbits := hi.bitcnt_lt (.inr hst)
  have herr := (hi.unfinished_of (by simp [hst]) (by simp [hst])).err
  have hb := Config.bounds c
  simp only [hst, waitTimeout] at htime
  rcases countBit_cases r with ⟨hlast, heq⟩ | ⟨hmore, heq⟩ <;> rw [heq]
  · simp only [ticksLeft, hst, herr, Option.isSome_none, Bool.false_eq_true, if_false]
    omega
  · have hcount : (r.bitcnt + 1).toNat = r.bitcnt.toNat + 1 := by bv_omega
    have hone : (1 : Timer).toNat = 1 := rfl
    have hbit : (nBits - 1 - r.bitcnt.toNat) * bitTicks c.toParams =
        (nBits - 1 - (r.bitcnt.toNat + 1)) * bitTicks c.toParams + ((c.toBitLow - 1) + (c.toBitHigh - 1)) := by
      have hleft : nBits - 1 - r.bitcnt.toNat = (nBits - 1 - (r.bitcnt.toNat + 1)) + 1 := by
        simp only [nBits]
        omega
      rw [hleft]
      exact Nat.succ_mul _ _
    simp only [ticksLeft, hst, hcount, hone, hbit]
    omega

/-- Every kind of tick of a busy block shortens the attempt. -/
theorem TickKind.ticksLeft_lt {r' : Regs} (h : TickKind c.toParams i r r') (hi : RegsInv c.toParams r)
    (hbusy : r.st ≠ .idle) : ticksLeft c.toParams r' < ticksLeft c.toParams r := by
  cases h with
  | hold hst => exact absurd hst hbusy
  | command hst => exact absurd hst hbusy
  | count hcounts hne =>
    have hlt := lt_of_le_of_ne hi.timer_bound hne
    exact ticksLeft_count hcounts hlt (hlt.trans_le (timerLimit_le hcounts))
  | drive x hx => exact ticksLeft_drive hi hx
  | timeout hw => exact two_le_ticksLeft hw
  | chain x hx htime => exact ticksLeft_chain htime hx
  | capture hst _ htime => exact ticksLeft_capture hst htime _
  | countBit hst htime => exact ticksLeft_countBit hi hst htime
  | fail hst he => simp [ticksLeft, hst, Option.isSome_iff_ne_none.mpr he]
  | validate hst he => simp [ticksLeft, hst, he]
  | publish hst => simp [ticksLeft, hst]

end

/-- A busy block has a tick left. -/
theorem ticksLeft_pos {c : Config} {r : Regs} (hi : RegsInv c.toParams r) (hbusy : r.st ≠ .idle) :
    0 < ticksLeft c.toParams r :=
  (Nat.zero_le _).trans_lt ((blockTick_kind c.toParams quietInput r hi.st_named).ticksLeft_lt hi hbusy)

/-- An idle block has none (R232). -/
theorem ticksLeft_idle {p : Params} {r : Regs} (hst : r.st = .idle) : ticksLeft p r = 0 := by
  simp [ticksLeft, hst]

/-- Settles O50: a tick shortens the attempt, and `rst` ends it. -/
theorem everyBusyTickShortensTheAttempt : Obligations.EveryBusyTickShortensTheAttempt := by
  intro s t _ hi hbusy h
  rcases step_regs_cases h with ⟨_, hregs⟩ | ⟨_, hkind⟩
  · rw [hregs, ticksLeft_idle rfl]
    exact ticksLeft_pos hi hbusy
  · exact hkind.ticksLeft_lt hi hbusy

/-! ## Attempts run to their end -/

/-- The stream one step on. -/
theorem step_streamAt {s t : State} (h : step s = .next t) (k : Nat) : t.streamAt k = s.streamAt (k + 1) := by
  obtain ⟨_, _, henv, htick⟩ := step_stream h
  exact streamAt_tail s t k henv htick

/-- No `rst` in the ticks after this one. -/
theorem NoReset.tail {s t : State} {n : Nat} (h : NoReset s (n + 1)) (hstep : step s = .next t) : NoReset t n := by
  intro k hk
  rw [step_streamAt hstep]
  exact h _ (by omega)

/-- No `rst` in fewer ticks. -/
theorem NoReset.mono {s : State} {m n : Nat} (h : NoReset s n) (hmn : m ≤ n) : NoReset s m :=
  fun k hk => h k (by omega)

/-- A run begins with a step. -/
theorem after_step {s t : State} (h : step s = .next t) (n : Nat) : after (n + 1) s = after n t := by
  simp [after, h]

/-- What a step of a busy block without `rst` does to an attempt, whatever the line shows and whatever call is pending: it gets
shorter, and if it ends, it ends with `done = 1` (R135, R150, R232). -/
structure BusyStep (s t : State) : Prop where
  step : step s = .next t
  live : t.live = true
  cfg : t.cfg = s.cfg
  inv : RegsInv t.cfg.toParams t.regs
  shorter : ticksLeft t.cfg.toParams t.regs < ticksLeft s.cfg.toParams s.regs
  coldQ : t.regs.coldQ = s.regs.coldQ
  ends : t.regs.st = .idle → t.regs.done = true

/-- Only a command writes `cold_q` (R25, R121). -/
theorem TickKind.busy_coldQ {p : Params} {i : Input} {r r' : Regs} (h : TickKind p i r r') (hbusy : r.st ≠ .idle) :
    r'.coldQ = r.coldQ := by
  cases h with
  | command hst => exact absurd hst hbusy
  | countBit =>
    obtain ⟨n, x, h⟩ := countBit_frame r
    rw [h]
  | publish => exact publish_coldQ _ _
  | _ => rfl

/-- The state after a busy block's tick is `IDLE` only where the attempt has ended (R135, R150). -/
theorem TickKind.busy_done {p : Params} {i : Input} {r r' : Regs} (h : TickKind p i r r') (hbusy : r.st ≠ .idle)
    (hend : r'.st = .idle) : r'.done = true := by
  cases h with
  | hold hst => exact absurd hst hbusy
  | command => simp at hend
  | count => exact absurd hend hbusy
  | drive x hx =>
    obtain rfl : x = .idle := hend
    rcases hx with ⟨_, hx⟩ | ⟨_, hx⟩ | ⟨_, hx⟩ <;> cases hx
  | timeout => cases hend
  | chain x hx =>
    obtain rfl : x = .idle := hend
    rcases hx with ⟨_, hx⟩ | ⟨_, hx⟩ | ⟨_, _, hx⟩ | ⟨_, _, hx⟩ | ⟨_, hx⟩ | ⟨_, hx⟩ <;> cases hx
  | capture => cases hend
  | countBit => rcases countBit_cases r with ⟨_, h⟩ | ⟨_, h⟩ <;> rw [h] at hend <;> cases hend
  | fail => rfl
  | validate => cases hend
  | publish => exact publish_done _ _

/-- A busy block makes such a step. -/
theorem busyStep {s : State} (hl : s.live = true) (hi : RegsInv s.cfg.toParams s.regs) (hbusy : s.regs.st ≠ .idle)
    (hr : s.ports.rst = false) : ∃ t, BusyStep s t := by
  obtain ⟨t, hstep, hregs, hcfg, hlive, _⟩ := step_regs s hl hr hi.st_named
  have hkind : TickKind s.cfg.toParams s.ports s.regs t.regs := hregs ▸ blockTick_kind _ _ _ hi.st_named
  exact ⟨t, {
    step := hstep
    live := hlive.trans hl
    cfg := hcfg
    inv := step_keeps_regsInv hi hstep
    shorter := hcfg ▸ hkind.ticksLeft_lt hi hbusy
    coldQ := hkind.busy_coldQ hbusy
    ends := hkind.busy_done hbusy }⟩

/-- The run of a busy block to the end of its attempt, `n` ticks later: what the steps of a busy block carry on (`Q`) holds all
along. -/
structure BusyRun (Q : State → Prop) (n : Nat) (s u : State) : Prop where
  run : after n s = some u
  live : u.live = true
  cfg : u.cfg = s.cfg
  inv : RegsInv u.cfg.toParams u.regs
  idle : u.regs.st = .idle
  done : u.regs.done = true
  coldQ : u.regs.coldQ = s.regs.coldQ
  carried : Q u
  stream : ∀ k, u.streamAt k = s.streamAt (n + k)
  busy : ∀ k < n, ∃ v, after k s = some v ∧ v.regs.st ≠ .idle ∧ RegsInv v.cfg.toParams v.regs ∧ Q v

/-- Every attempt ends within the ticks it can still last, by induction on these (R232). -/
theorem busyRun {Q : State → Prop}
    (hQ : ∀ u t, RegsInv u.cfg.toParams u.regs → u.regs.st ≠ .idle → u.ports.rst = false → step u = .next t → Q u → Q t)
    (N : Nat) {s : State} (hN : ticksLeft s.cfg.toParams s.regs ≤ N) (hl : s.live = true)
    (hi : RegsInv s.cfg.toParams s.regs) (hbusy : s.regs.st ≠ .idle) (hreset : NoReset s N) (hq : Q s) :
    ∃ n u, n ≤ N ∧ BusyRun Q n s u := by
  induction N generalizing s with
  | zero => exact absurd (ticksLeft_pos hi hbusy) hN.not_gt
  | succ N ih =>
    have hr : s.ports.rst = false := (ports_stream s).1.trans (hreset 0 (by omega))
    obtain ⟨t, ht⟩ := busyStep hl hi hbusy hr
    have hqt := hQ s t hi hbusy hr ht.step hq
    by_cases hend : t.regs.st = .idle
    · exact ⟨1, t, by omega, {
        run := (after_step ht.step 0).trans (after_zero t)
        live := ht.live
        cfg := ht.cfg
        inv := ht.inv
        idle := hend
        done := ht.ends hend
        coldQ := ht.coldQ
        carried := hqt
        stream := fun k => by rw [step_streamAt ht.step, Nat.add_comm]
        busy := fun k hk => by
          obtain rfl : k = 0 := by omega
          exact ⟨s, after_zero s, hbusy, hi, hq⟩ }⟩
    · have hshorter := ht.shorter
      obtain ⟨n, u, hn, hrun⟩ := ih (by omega) ht.live ht.inv hend (hreset.tail ht.step) hqt
      exact ⟨n + 1, u, by omega, {
        run := (after_step ht.step n).trans hrun.run
        live := hrun.live
        cfg := hrun.cfg.trans ht.cfg
        inv := hrun.inv
        idle := hrun.idle
        done := hrun.done
        coldQ := hrun.coldQ.trans ht.coldQ
        carried := hrun.carried
        stream := fun k => by
          rw [hrun.stream, step_streamAt ht.step]
          congr 1
          omega
        busy := fun k hk => by
          cases k with
          | zero => exact ⟨s, after_zero s, hbusy, hi, hq⟩
          | succ k =>
            rw [after_step ht.step]
            exact hrun.busy k (by omega) }⟩

/-- After a command an attempt of the whole bound is left (R232). -/
theorem ticksLeft_acceptCommand (p : Params) (r : Regs) (c : Bool) :
    ticksLeft p (acceptCommand r c) = attemptBound p c := by
  simp only [ticksLeft, acceptCommand, attemptBound]
  rfl

/-- An accepted command begins an attempt, whatever call is pending (R121). -/
theorem step_command {s : State} (hl : s.live = true) (hst : s.regs.st = .idle) (hr : s.ports.rst = false)
    (hstart : s.ports.start = true) :
    ∃ t, step s = .next t ∧ t.regs = acceptCommand s.regs s.ports.cold ∧ StreamElapsed s t := by
  obtain ⟨t, hstep, hregs, helapsed⟩ := step_regs s hl hr (by rw [hst]; rfl)
  rw [blockTick_idle hst, hstart] at hregs
  exact ⟨t, hstep, hregs, helapsed⟩

/-- Settles O51: the command's tick, then `busyRun`. -/
theorem everyAttemptEnds : Obligations.EveryAttemptEnds := by
  refine ⟨fun s hl hst hstart hreset => ?_, rfl, rfl⟩
  have hr : s.ports.rst = false := (ports_stream s).1.trans (hreset 0 (by omega))
  obtain ⟨t, hstep, hregs, hcfg, hlive, _⟩ := step_command hl hst hr hstart
  have hleft : ticksLeft t.cfg.toParams t.regs ≤ attemptBound s.cfg.toParams s.ports.cold := by
    rw [hregs, hcfg, ticksLeft_acceptCommand]
  obtain ⟨n, u, hn, hrun⟩ := busyRun (Q := fun _ => True) (fun _ _ _ _ _ _ _ => trivial) _ hleft (hlive.trans hl)
    (hregs ▸ regsInv_acceptCommand _ _ _) (by simp [hregs]) (hreset.tail hstep) trivial
  exact ⟨n, u, hn, (after_step hstep n).trans hrun.run, hrun.idle, hrun.done, hrun.coldQ.trans (by rw [hregs]; rfl)⟩

/-! ## Program P3: no sensor (R194) -/

/-- A command's tick, on the ports of that tick. -/
theorem reaches_command {s : State} (hl : s.live = true) (hst : s.regs.st = .idle) (hr : (s.streamAt 0).rst = false)
    (hstart : s.ports.start = true) : Reaches s 1 (acceptCommand s.regs s.ports.cold) := by
  obtain ⟨t, hstep, hregs, helapsed⟩ := step_command hl hst ((ports_stream s).1.trans hr) hstart
  exact ⟨t, after_succ (after_zero s) hstep, hregs, (runElapsed_zero s).step helapsed⟩

/-- From the command to the first poll of `W2_REL_HIGH` (R123 to R126). -/
theorem reaches_release {s : State} (hl : s.live = true) (hst : s.regs.st = .idle) (hstart : s.ports.start = true)
    (hreset : NoReset s (s.cfg.tIdleUs + s.cfg.tStartLow + 2)) :
    Reaches s (s.cfg.tIdleUs + s.cfg.tStartLow + 2) { acceptCommand s.regs s.ports.cold with tmr := 0, st := .w2RelHigh } := by
  obtain ⟨hidleMin, hidleMax, hstartMin, hstartMax, _⟩ := Config.bounds s.cfg
  have hcommand := reaches_command hl hst (hreset 0 (by omega)) hstart
  have hidle := Reaches.timed (r := acceptCommand s.regs s.ports.cold) hl hcommand (hreset.mono (by omega)) rfl (by simp)
    hidleMin (by omega) fun _ _ => blockTick_s0IdleHigh rfl
  have hsignal := Reaches.timed (r := { acceptCommand s.regs s.ports.cold with tmr := 0, st := .s1StartLow }) hl hidle
    (hreset.mono (by omega)) rfl (by simp) hstartMin hstartMax fun _ _ => blockTick_startLow _ _ _ rfl
  have hrelease := hsignal.tick hl (hreset _ (by omega)) rfl (by simp)
  rw [blockTick_s2Release rfl] at hrelease
  rwa [show 1 + s.cfg.tIdleUs + s.cfg.tStartLow + 1 = s.cfg.tIdleUs + s.cfg.tStartLow + 2 by omega] at hrelease

/-- Settles O52: the released line is HIGH in the first poll, `W3_ACK_LOW` counts to its timeout, and `S8_RESTORE` ends the
attempt. -/
theorem noSensorGivesE2 : Obligations.NoSensorGivesE2 := by
  rintro s _ hl hst hstart rfl hreset hline
  have hb := Config.bounds s.cfg
  have hrel := reaches_release hl hst hstart (hreset.mono (by omega))
  have hack := Reaches.accepts (r := { acceptCommand s.regs s.ports.cold with tmr := 0, st := .w2RelHigh }) (b := 0) hl hrel
    (hreset _ (by omega)) rfl (by change 0 < s.cfg.toRelHigh; omega) (hline _ (by omega) le_rfl)
  have hmissed := Reaches.misses (r := { acceptCommand s.regs s.ports.cold with tmr := 1, st := .w3AckLow }) (b := 1)
    (m := s.cfg.toAckLow - 1) hl hack (hreset.mono (by omega)) rfl (by change 1 + _ ≤ s.cfg.toAckLow; omega) fun k hk => by
      rw [hline _ (by omega) (by omega)]
      exact (by decide : Triple.all .high ≠ Triple.all .low)
  have hfailed := hmissed.timesOut hl (hreset _ (by omega)) rfl (by change 1 + _ = s.cfg.toAckLow; omega)
  have hended := hfailed.fails hl (hreset _ (by omega)) rfl (by simp)
  obtain ⟨u, hu, hregs, _⟩ := hended
  rw [show s.cfg.tIdleUs + s.cfg.tStartLow + 2 + 1 + (s.cfg.toAckLow - 1) + 1 + 1 =
    s.cfg.tIdleUs + s.cfg.tStartLow + 2 + s.cfg.toAckLow + 2 by omega] at hu
  exact ⟨u, hu, hregs ▸ outcome_of_error _ .e2 rfl rfl rfl⟩

end Sys2Proof.Machine
end

section
/-! PROOFS of the family 43_retry_sampler.md, the function and the host agent: what `sample` begins (R172), what `sampleRun` counts
(R174), the agent's moves (R171 to R173), the returns (R176) and the delay (R173). -/

namespace Sys2Proof.Machine

/-! ## What a `sample` call begins (R172, R175) -/

/-- The budget of a call: the operand, or the default (R175). -/
theorem maxAttemptsOf_eq (p : Params) (n : Option Nat) : maxAttemptsOf p n = n.getD p.maxAttemptsDefault := by
  cases n <;> rfl

/-- A `sample` call leaves the micro-step's next state, but with its session begun (R172; log entries 5, 8). -/
theorem sample_begins {s : State} (n : Option Nat) (d : Nat) (c : Bool) (hs : s.session = none)
    (hn : stNamed s.regs.st = true) :
    ∃ u, exec (stInstr s.regs.st) s = .next u ∧ exec (.sample n d c) s =
      .next (u.startSession (beginSession (n.getD s.cfg.maxAttemptsDefault) d c)) := by
  refine ⟨_, exec_microstep s hn, ?_⟩
  rw [exec_sample n d c s hs, besideBlock_named s _ hn, maxAttemptsOf_eq]

/-- Settles O53: `sample_begins`, and the three sessions that `beginSession` gives. -/
theorem sampleBeginsASession : Obligations.SampleBeginsASession := by
  intro n d m s hs hn hm
  obtain ⟨u, hu, hcold⟩ := sample_begins n d true hs hn
  obtain ⟨v, hv, hwarm⟩ := sample_begins n d false hs hn
  rw [← hm] at hcold hwarm
  refine ⟨⟨u, hu, hcold⟩, fun h0 => ?none, fun k hk => ?some⟩
  case none =>
    subst h0
    exact ⟨v, hv, hwarm⟩
  case some =>
    subst hk
    exact ⟨v, hv, hwarm⟩

/-- Settles O54: the session of the state decides before anything else (R63, R179). -/
theorem secondSampleIsRefused : Obligations.SecondSampleIsRefused := by
  intro n d c s hs
  obtain ⟨ss, hss⟩ := Option.ne_none_iff_exists'.mp hs
  change execSample n d c s = _
  simp [execSample, hss]

/-! ## What `sampleRun` counts (R174) -/

/-- A warm `Ok` is returned at once (R172(b)). -/
theorem warmRun_ok {stub : Nat → DecodeOutcome} {i : Nat} {h t : Tenths} (left : Nat) (hstub : stub i = .ok h t) :
    warmRun stub (left + 1) i = { result := .ok h t, coldDecodes := 0, warmDecodes := 1, delays := 0 } := by
  simp [warmRun, hstub]

/-- The last warm error exhausts the budget, without a delay after it (R172(c)). -/
theorem warmRun_last {stub : Nat → DecodeOutcome} {i : Nat} {e : ErrName} (hstub : stub i = .err e) :
    warmRun stub 1 i = { result := .exhausted, coldDecodes := 0, warmDecodes := 1, delays := 0 } := by
  simp [warmRun, hstub]

/-- A warm error with an attempt left is followed by a delay and the rest of the run (R172(b)). -/
theorem warmRun_err {stub : Nat → DecodeOutcome} {i : Nat} {e : ErrName} (left : Nat) (hstub : stub i = .err e) :
    warmRun stub (left + 2) i =
      { warmRun stub (left + 1) (i + 1) with
        warmDecodes := (warmRun stub (left + 1) (i + 1)).warmDecodes + 1
        delays := (warmRun stub (left + 1) (i + 1)).delays + 1 } := by
  rw [warmRun, hstub]
  exact if_neg (Nat.succ_ne_zero left)

/-- `n` errors and then an `Ok`, within the budget. -/
theorem warmRun_errors_ok {stub : Nat → DecodeOutcome} {h t : Tenths} (n : Nat) {m i : Nat} (hm : n < m)
    (herr : ∀ k < n, ∃ e, stub (i + k) = .err e) (hok : stub (i + n) = .ok h t) :
    warmRun stub m i = { result := .ok h t, coldDecodes := 0, warmDecodes := n + 1, delays := n } := by
  induction n generalizing m i with
  | zero =>
    obtain ⟨left, rfl⟩ : ∃ left, m = left + 1 := ⟨m - 1, by omega⟩
    exact warmRun_ok left hok
  | succ n ih =>
    obtain ⟨left, rfl⟩ : ∃ left, m = left + 2 := ⟨m - 2, by omega⟩
    obtain ⟨e, he⟩ : ∃ e, stub i = .err e := herr 0 (by omega)
    have hnext (k : Nat) : i + 1 + k = i + (k + 1) := by omega
    rw [warmRun_err left he, ih (m := left + 1) (i := i + 1) (by omega)
      (fun k hk => by rw [hnext]; exact herr (k + 1) (by omega)) (by rw [hnext]; exact hok)]

/-- Errors alone, to the end of the budget. -/
theorem warmRun_errors {stub : Nat → DecodeOutcome} (m : Nat) {i : Nat} (herr : ∀ k < m, ∃ e, stub (i + k) = .err e) :
    warmRun stub m i = { result := .exhausted, coldDecodes := 0, warmDecodes := m, delays := m - 1 } := by
  induction m generalizing i with
  | zero => rfl
  | succ left ih =>
    obtain ⟨e, he⟩ : ∃ e, stub i = .err e := herr 0 (by omega)
    cases left with
    | zero => exact warmRun_last he
    | succ left =>
      rw [warmRun_err left he, ih (i := i + 1) fun k hk => by
        rw [show i + 1 + k = i + (k + 1) by omega]
        exact herr (k + 1) (by omega)]
      rfl

/-- Settles O58: N − 1 errors before the `Ok`, or errors alone. -/
theorem sampleCountsAttemptsAndDelays : Obligations.SampleCountsAttemptsAndDelays := by
  intro stub m
  refine ⟨fun n h t hn hm herr hok => ?success, fun herr => ?exhausted⟩
  case success =>
    have hrun := warmRun_errors_ok (m := m) (i := 0) (n - 1) (by omega) (by simpa using herr) (by rw [Nat.zero_add]; exact hok)
    rw [Nat.sub_add_cancel hn] at hrun
    exact hrun
  case exhausted => exact warmRun_errors (i := 0) m (by simpa using herr)

/-- A run from the stub's call `i + 1` on is a run of the stub without its first answer. -/
theorem warmRun_shift (stub : Nat → DecodeOutcome) (m i : Nat) :
    warmRun stub m (i + 1) = warmRun (fun k => stub (k + 1)) m i := by
  induction m generalizing i with
  | zero => rfl
  | succ m ih => rw [warmRun, warmRun, ih]

/-- Settles O59: the cold run is a cold decode, a delay, and the warm run of the remaining outcomes. -/
theorem coldStartDiscardsTheFirstOutcome : Obligations.ColdStartDiscardsTheFirstOutcome := by
  intro stub m
  have hrest : sampleRun (fun k => stub (k + 1)) m false = warmRun stub m 1 := (warmRun_shift stub m 0).symm
  rw [hrest]
  exact ⟨rfl, rfl, rfl, rfl⟩

/-! ## The agent's moves (R171 to R173) -/

/-- Port `busy` is 0 in `IDLE` (R32). -/
theorem busy_of_idle {r : Regs} (h : r.st = .idle) : r.out.busy = false := by
  simp [h]

/-- Port `busy` is 1 in every other state (R32). -/
theorem busy_of_ne {r : Regs} (h : r.st ≠ .idle) : r.out.busy = true := by
  simp [h]

/-- The move that presents a command (R171(2)). -/
def hostCommand (ss : Session) (c : Bool) : HostMove where
  start := true
  cold := c
  next := some { ss with phase := .awaitDone c }
  result := none

theorem hostRequest_busy {ss : Session} {c : Bool} {o : Output} (h : o.busy = true) :
    hostRequest ss c o = hostHold ss (.request c) := if_pos h

theorem hostRequest_idle {ss : Session} {c : Bool} {o : Output} (h : o.busy = false) :
    hostRequest ss c o = hostCommand ss c := if_neg (by simp [h])

theorem hostFinish_busy {ss : Session} {o : Output} (h : o.busy = true) : hostFinish ss o = hostHold ss .finish := if_pos h

theorem hostFinish_idle {ss : Session} {o : Output} (h : o.busy = false) : hostFinish ss o = hostReturn .exhausted :=
  if_neg (by simp [h])

theorem hostNextWarm_succ {ss : Session} {n : Nat} {o : Output} (h : ss.attemptsLeft = n + 1) :
    hostNextWarm ss o = hostRequest { ss with attemptsLeft := n } false o := by
  simp [hostNextWarm, h]

section
variable {ss : Session} {o : Output}

theorem hostPlan_request {c : Bool} (hph : ss.phase = .request c) : hostPlan ss o = hostRequest ss c o := by
  simp [hostPlan, hph]

theorem hostPlan_waiting {c : Bool} (hph : ss.phase = .awaitDone c) (hd : o.done = false) :
    hostPlan ss o = hostHold ss (.awaitDone c) := by
  simp [hostPlan, hph, hd]

theorem hostPlan_outcome {c : Bool} (hph : ss.phase = .awaitDone c) (hd : o.done = true) :
    hostPlan ss o = hostOutcome ss c o := by
  simp [hostPlan, hph, hd]

theorem hostPlan_pause {n : Nat} (hph : ss.phase = .pause n) : hostPlan ss o = hostPause ss n o := by
  simp [hostPlan, hph]

theorem hostPlan_finish (hph : ss.phase = .finish) : hostPlan ss o = hostFinish ss o := by
  simp [hostPlan, hph]

/-- A warm `Ok` is returned (R172(b)). -/
theorem hostOutcome_ok (hv : o.valid = true) : hostOutcome ss false o = hostReturn (.ok o.humX10 o.tempX10) := by
  simp [hostOutcome, hv]

/-- A warm error with nothing left is `Exhausted` (R172(c)). -/
theorem hostOutcome_exhausted (hv : o.valid = false) (h : ss.attemptsLeft = 0) :
    hostOutcome ss false o = hostReturn .exhausted := by
  simp [hostOutcome, hv, h]

/-- A cold outcome, and a warm error with an attempt left, are followed by a delay (R172(a), (b)). -/
theorem hostOutcome_delays {c : Bool} (h : c = true ∨ (o.valid = false ∧ 0 < ss.attemptsLeft)) :
    hostOutcome ss c o = hostPause ss ss.retryDelay o := by
  rcases h with rfl | ⟨hv, hleft⟩
  · rfl
  · cases c
    · simp [hostOutcome, hv, hleft.ne']
    · rfl

/-- The host goes on, without a result, or returns one, presenting nothing. -/
theorem hostRequest_goesOn (ss : Session) (c : Bool) (o : Output) :
    (hostRequest ss c o).next.isSome = true ∧ (hostRequest ss c o).result = none := by
  rcases hostRequest_cases ss c o with ⟨_, h⟩ | ⟨_, _, _, hnext, hresult⟩
  · rw [h]
    exact ⟨rfl, rfl⟩
  · rw [hnext, hresult]
    exact ⟨rfl, rfl⟩

theorem hostPause_cases (ss : Session) (n : Nat) (o : Output) :
    hostPause ss n o = hostReturn .exhausted ∨
    ((hostPause ss n o).next.isSome = true ∧ (hostPause ss n o).result = none) := by
  cases n with
  | zero =>
    change hostNextWarm ss o = _ ∨ _ ∧ _
    rcases hostNextWarm_cases ss o with ⟨_, h⟩ | ⟨_, _, h⟩
    · exact .inl h
    · refine .inr ?_
      change (hostNextWarm ss o).next.isSome = true ∧ (hostNextWarm ss o).result = none
      rw [h]
      exact hostRequest_goesOn _ _ _
  | succ m => exact .inr ⟨rfl, rfl⟩

/-- Everything the protocol's move can be: it goes on without a result; or it returns `Exhausted`, or the published reading, in a
tick in which an attempt is over or no attempt runs (R176). -/
theorem hostPlan_cases (ss : Session) (o : Output) :
    ((hostPlan ss o).next.isSome = true ∧ (hostPlan ss o).result = none) ∨
    ∃ x, hostPlan ss o = hostReturn x ∧ (x = .exhausted ∨ (o.valid = true ∧ x = .ok o.humX10 o.tempX10)) ∧
      (o.done = true ∨ (∃ n, ss.phase = .pause n) ∨ o.busy = false) := by
  cases hph : ss.phase with
  | request c =>
    rw [hostPlan_request hph]
    exact .inl (hostRequest_goesOn _ _ _)
  | awaitDone c =>
    cases hd : o.done with
    | false =>
      rw [hostPlan_waiting hph hd]
      exact .inl ⟨rfl, rfl⟩
    | true =>
      rw [hostPlan_outcome hph hd]
      by_cases hdelay : c = true ∨ (o.valid = false ∧ 0 < ss.attemptsLeft)
      · rw [hostOutcome_delays hdelay]
        exact (hostPause_cases ss _ o).symm.imp_right fun h => ⟨_, h, .inl rfl, .inl rfl⟩
      · obtain ⟨hc, hleft⟩ := not_or.mp hdelay
        obtain rfl := Bool.eq_false_iff.mpr hc
        cases hv : o.valid with
        | true => exact .inr ⟨_, hostOutcome_ok hv, .inr ⟨rfl, rfl⟩, .inl rfl⟩
        | false => exact .inr ⟨_, hostOutcome_exhausted hv (by simpa [hv] using hleft), .inl rfl, .inl rfl⟩
  | pause n =>
    rw [hostPlan_pause hph]
    exact (hostPause_cases ss n o).symm.imp_right fun h => ⟨_, h, .inl rfl, .inr (.inl ⟨n, rfl⟩)⟩
  | finish =>
    rw [hostPlan_finish hph]
    rcases hostFinish_cases ss o with ⟨_, h⟩ | ⟨hb, h⟩
    · rw [h]
      exact .inl ⟨rfl, rfl⟩
    · exact .inr ⟨_, h, .inl rfl, .inr (.inr hb)⟩

end

/-- In a busy block the host does not stop (R179; log entry 9). -/
theorem hostMove_busy {ss : Session} {o : Output} (stop : Bool) (hb : o.busy = true) :
    hostMove ss o stop = hostPlan ss o := by
  simp [hostMove, hb]

/-- A host that stops between attempts presents nothing and leaves, returning only what was due (R179; log entry 9). -/
theorem hostMove_stops {ss : Session} {o : Output} (hb : o.busy = false) :
    (hostMove ss o true).start = false ∧ (hostMove ss o true).next = none ∧
    (hostMove ss o true).result = (hostPlan ss o).result := by
  rcases hostPlan_cases ss o with ⟨hnext, hresult⟩ | ⟨x, h, _⟩
  · simp [hostMove, hb, hnext, hresult, hostStop]
  · simp [hostMove, h, hostReturn]

/-- The moves after a delay: the next warm command where the block is idle, a request where it is busy, `Exhausted` with
nothing left (R172(b), (c)). -/
theorem hostNextWarm_moves (left d : Nat) (ph : Phase) (o : Output) :
    (0 < left → o.busy = false → hostNextWarm ⟨left, d, ph⟩ o = hostCommand ⟨left - 1, d, ph⟩ false) ∧
    (0 < left → o.busy = true → hostNextWarm ⟨left, d, ph⟩ o = hostHold ⟨left - 1, d, ph⟩ (.request false)) ∧
    (left = 0 → hostNextWarm ⟨left, d, ph⟩ o = hostReturn .exhausted) := by
  cases left with
  | zero => exact ⟨fun h => by omega, fun h => by omega, fun _ => rfl⟩
  | succ n =>
    exact ⟨fun _ hb => (hostNextWarm_succ rfl).trans (hostRequest_idle hb),
      fun _ hb => (hostNextWarm_succ rfl).trans (hostRequest_busy hb), fun h => by omega⟩

/-- Settles O55: the plan in each phase, by the equations of the moves. -/
theorem hostAgentFollowsTheProtocol : Obligations.HostAgentFollowsTheProtocol := by
  intro s left d ph hs ss stop m
  obtain ⟨hcommand, hwait, hexhausted⟩ := hostNextWarm_moves left d ph s.regs.out
  obtain ⟨hstart, hcold⟩ := ports_session s ss hs
  refine ⟨hstart, hcold, fun _ hst => ?goesOn, fun hstop hst => ?stops, fun hstop => ?plan⟩
  case goesOn => exact hostMove_busy stop (busy_of_ne hst)
  case stops =>
    have h := hostMove_stops (ss := ss) (busy_of_idle hst)
    rwa [← hstop] at h
  case plan =>
    have hplan : m = hostPlan ss s.regs.out := congrArg (hostMove ss s.regs.out) hstop
    rw [hplan]
    refine ⟨?requestBusy, ?requestIdle, ?waiting, ?ok, ?exhausted, ?delay, ?paused, ?nextIdle, ?nextBusy, ?nextNone,
      ?finishBusy, ?finishIdle⟩
    case requestBusy =>
      rintro c hph hst
      rw [hostPlan_request hph, hostRequest_busy (busy_of_ne hst)]
      exact ⟨rfl, rfl⟩
    case requestIdle =>
      rintro c hph hst
      rw [hostPlan_request hph, hostRequest_idle (busy_of_idle hst)]
      exact ⟨rfl, rfl, rfl⟩
    case waiting =>
      rintro c hph hd
      rw [hostPlan_waiting hph hd]
      exact ⟨rfl, rfl⟩
    case ok =>
      rintro hph hd hv
      rw [hostPlan_outcome hph hd, hostOutcome_ok hv]
      exact ⟨rfl, rfl, rfl⟩
    case exhausted =>
      rintro hph hd hv hleft
      rw [hostPlan_outcome hph hd, hostOutcome_exhausted hv hleft]
      exact ⟨rfl, rfl, rfl⟩
    case delay =>
      intro hph hd
      have hdelay : hostPlan ss s.regs.out = hostPause ss d s.regs.out := by
        rcases hph with hph | ⟨hph, hv, hleft⟩
        · exact (hostPlan_outcome hph hd).trans (hostOutcome_delays (.inl rfl))
        · exact (hostPlan_outcome hph hd).trans (hostOutcome_delays (.inr ⟨hv, hleft⟩))
      rw [hdelay]
      refine ⟨fun hpos => ?_, fun h0 hleft hst => ?_, fun h0 hleft hst => ?_, fun h0 hleft => ?_⟩
      · obtain ⟨n, rfl⟩ : ∃ n, d = n + 1 := ⟨d - 1, by omega⟩
        exact ⟨rfl, rfl⟩
      · subst h0
        rw [hostPause, hcommand hleft (busy_of_idle hst)]
        exact ⟨rfl, rfl, rfl⟩
      · subst h0
        rw [hostPause, hwait hleft (busy_of_ne hst)]
        exact ⟨rfl, rfl⟩
      · subst h0
        rw [hostPause, hexhausted hleft]
        exact ⟨rfl, rfl, rfl⟩
    case paused =>
      rintro n hph
      rw [hostPlan_pause hph]
      exact ⟨rfl, rfl⟩
    case nextIdle =>
      rintro hph hleft hst
      rw [hostPlan_pause hph, hostPause, hcommand hleft (busy_of_idle hst)]
      exact ⟨rfl, rfl, rfl⟩
    case nextBusy =>
      rintro hph hleft hst
      rw [hostPlan_pause hph, hostPause, hwait hleft (busy_of_ne hst)]
      exact ⟨rfl, rfl⟩
    case nextNone =>
      rintro hph hleft
      rw [hostPlan_pause hph, hostPause, hexhausted hleft]
      exact ⟨rfl, rfl, rfl⟩
    case finishBusy =>
      rintro hph hst
      rw [hostPlan_finish hph, hostFinish_busy (busy_of_ne hst)]
      exact ⟨rfl, rfl⟩
    case finishIdle =>
      rintro hph hst
      rw [hostPlan_finish hph, hostFinish_idle (busy_of_idle hst)]
      exact ⟨rfl, rfl, rfl⟩

end Sys2Proof.Machine
end

section
/-! PROOFS of the family 43_retry_sampler.md, the ticks of a session: where it returns (R176, R178) and how its delay is counted
(R173). -/

namespace Sys2Proof.Machine

/-! ## One tick of a session -/

/-- In a session nothing runs beside the block's tick but the host's move (log entry 10). -/
theorem step_session_finishTick {s t : State} {ss : Session} (hs : s.session = some ss) (h : step s = .next t) :
    ∃ r, t.session = (finishTick s r).session ∧ t.ret = (finishTick s r).ret := by
  rcases step_cases h with ⟨_, rfl⟩ | ⟨_, _, _, rfl⟩
  · exact ⟨Regs.reset, rfl, rfl⟩
  · rw [besideTick_no_call (callNow_session s (by simp [hs]))]
    exact ⟨_, rfl, rfl⟩

/-- So the session and the result of the tick are the host's move. -/
theorem session_next {s t : State} {ss : Session} (hs : s.session = some ss) (h : step s = .next t) :
    t.session = (hostMove ss s.regs.out (s.streamAt 0).stop).next ∧
    (∀ x, (hostMove ss s.regs.out (s.streamAt 0).stop).result = some x → t.ret = some (.sampled x)) ∧
    ((hostMove ss s.regs.out (s.streamAt 0).stop).result = none → t.ret = s.ret) := by
  have hhost := host_session hs
  obtain ⟨r, hsession, hret⟩ := step_session_finishTick hs h
  rw [hsession, hret]
  exact ⟨by simp [hhost], fun x hx => by simp [hhost, hx], fun hx => by simp [hhost, hx]⟩

/-- A tick of an idle block with nothing presented keeps its registers; with `rst` it resets them; both leave it idle. -/
theorem step_idle_quiet {s t : State} (hst : s.regs.st = .idle) (hstart : s.ports.start = false) (h : step s = .next t) :
    t.regs.st = .idle := by
  rcases step_cases h with ⟨_, rfl⟩ | ⟨_, _, _, rfl⟩
  · rfl
  · rw [(besideTick_block s _).1, finishTick_regs, blockTick_idle_hold hst hstart]
    exact hst

/-- A tick in which a session ends is a tick of an idle block, with nothing presented; it returns `Exhausted`, or the published
reading, or the host has stopped (R176, R179). -/
theorem session_ends {s : State} {ss : Session} (hi : RegsInv s.cfg.toParams s.regs) (hsess : sessionInv s)
    (hs : s.session = some ss) (hend : (hostMove ss s.regs.out (s.streamAt 0).stop).next = none) :
    s.regs.st = .idle ∧ (hostMove ss s.regs.out (s.streamAt 0).stop).start = false ∧
    ((hostMove ss s.regs.out (s.streamAt 0).stop).result = some .exhausted ∨
      (s.regs.valid = true ∧
        (hostMove ss s.regs.out (s.streamAt 0).stop).result = some (.ok s.regs.humX10 s.regs.tempX10)) ∨
      ((s.streamAt 0).stop = true ∧ (hostMove ss s.regs.out (s.streamAt 0).stop).result = none)) := by
  rcases hostMove_cases ss s.regs.out (s.streamAt 0).stop with ⟨hstop, hb, _, hmove⟩ | hmove
  · rw [hmove]
    exact ⟨by simpa using hb, rfl, .inr (.inr ⟨hstop, rfl⟩)⟩
  · rw [hmove] at hend ⊢
    rcases hostPlan_cases ss s.regs.out with ⟨hnext, _⟩ | ⟨x, hplan, hx, hplace⟩
    · simp [hend] at hnext
    · rw [hplan]
      refine ⟨?_, rfl, ?_⟩
      · rcases hplace with hd | ⟨n, hph⟩ | hb
        · exact hi.done_idle hd
        · exact hsess ss n hs hph
        · simpa using hb
      · rcases hx with rfl | ⟨hv, rfl⟩
        · exact .inl rfl
        · exact .inr (.inl ⟨hv, rfl⟩)

/-- Settles O57: `session_ends`; nothing is presented, so the idle block stays idle and drives the line HIGH. -/
theorem sampleReturnsThePublishedReading : Obligations.SampleReturnsThePublishedReading := by
  intro s t ss hl hinv hs h hnone
  obtain ⟨hi, hsess⟩ := hinv hl
  obtain ⟨hnext, hresult, hnoResult⟩ := session_next hs h
  obtain ⟨hst, hquiet, hreturn⟩ := session_ends hi hsess hs (hnext.symm.trans hnone)
  obtain ⟨hstart, _⟩ := ports_session s ss hs
  have hidle := step_idle_quiet hst (hstart.trans hquiet) h
  obtain ⟨hoe, hout⟩ := drives_high t.regs (by simp [hidle, isWait]) (by simp [hidle])
  refine ⟨hidle, hoe, hout, ?_⟩
  rcases hreturn with hr | ⟨hv, hr⟩ | ⟨hstop, hr⟩
  · exact .inl (hresult _ hr)
  · exact .inr (.inl ⟨hv, hresult _ hr⟩)
  · exact .inr (.inr ⟨hstop, hnoResult hr⟩)

/-! ## The delay (R173) -/

/-- A tick of a session whose host does not stop, without `rst`: the host makes the move `mv` of its protocol. -/
structure SessionTick (s : State) (mv : HostMove) (t : State) : Prop where
  step : step s = .next t
  elapsed : StreamElapsed s t
  start : s.ports.start = mv.start
  cold : s.ports.cold = mv.cold
  regs : t.regs = blockTick s.cfg.toParams s.ports s.regs
  session : t.session = mv.next
  ret : ∀ x, mv.result = some x → t.ret = some (.sampled x)

theorem sessionTick {s : State} {ss : Session} {mv : HostMove} (hl : s.live = true) (hn : stNamed s.regs.st = true)
    (hr : (s.streamAt 0).rst = false) (hstop : (s.streamAt 0).stop = false) (hs : s.session = some ss)
    (hplan : hostPlan ss s.regs.out = mv) : ∃ t, SessionTick s mv t := by
  obtain ⟨t, hstep, hregs, helapsed⟩ := step_regs s hl ((ports_stream s).1.trans hr) hn
  obtain ⟨hstart, hcold⟩ := ports_session s ss hs
  obtain ⟨hnext, hret, _⟩ := session_next hs hstep
  rw [hstop, hostMove_plan, hplan] at hstart hcold hnext hret
  exact ⟨t, hstep, helapsed, hstart, hcold, hregs, hnext, hret⟩

/-- The host is about to sleep `j` ticks, this one the first, on an idle block, and then to make its next warm attempt of
`left`. -/
def AtDelay (left d j : Nat) (s : State) : Prop :=
  s.regs.st = .idle ∧ ∃ ph, s.session = some ⟨left, d, ph⟩ ∧
    hostPlan ⟨left, d, ph⟩ s.regs.out = hostPause ⟨left, d, ph⟩ j s.regs.out

/-- After a cold outcome, or a warm error with an attempt left, the host is at its delay (R172(a), (b)). -/
theorem atDelay_of_done {s : State} {left d : Nat} {c : Bool} (hi : RegsInv s.cfg.toParams s.regs)
    (hs : s.session = some ⟨left, d, .awaitDone c⟩) (hd : s.regs.done = true)
    (h : c = true ∨ (s.regs.valid = false ∧ 0 < left)) : AtDelay left d d s :=
  ⟨hi.done_idle hd, .awaitDone c, hs, (hostPlan_outcome rfl hd).trans (hostOutcome_delays h)⟩

section
variable {s : State} {left d j : Nat} (hl : s.live = true) (hr : (s.streamAt 0).rst = false)
  (hstop : (s.streamAt 0).stop = false)

include hl hr hstop

/-- A tick of the delay: nothing is presented and the block keeps its registers. -/
theorem AtDelay.sleep (h : AtDelay left d (j + 1) s) :
    ∃ t, SessionTick s (hostHold ⟨left, d, .pause j⟩ (.pause j)) t ∧ t.regs = s.regs ∧ AtDelay left d j t := by
  obtain ⟨hst, ph, hs, hplan⟩ := h
  obtain ⟨t, ht⟩ := sessionTick hl (by rw [hst]; rfl) hr hstop hs (hplan.trans rfl)
  have hregs : t.regs = s.regs := ht.regs.trans (blockTick_idle_hold hst ht.start)
  exact ⟨t, ht, hregs, by rw [hregs]; exact hst, .pause j, ht.session, hostPlan_pause rfl⟩

/-- The tick after the delay, with an attempt left: the next warm command (R171, R172(b)). -/
theorem AtDelay.commands (h : AtDelay left d 0 s) (hleft : 0 < left) :
    ∃ t, SessionTick s (hostCommand ⟨left - 1, d, .awaitDone false⟩ false) t := by
  obtain ⟨hst, ph, hs, hplan⟩ := h
  obtain ⟨hcommand, _⟩ := hostNextWarm_moves left d ph s.regs.out
  exact sessionTick hl (by rw [hst]; rfl) hr hstop hs (hplan.trans (hcommand hleft (busy_of_idle hst)))

/-- The tick after the delay, with none left: `Exhausted` (R172(c)). -/
theorem AtDelay.exhausts (h : AtDelay left d 0 s) (hleft : left = 0) :
    ∃ t, SessionTick s (hostReturn .exhausted) t ∧ t.regs = s.regs := by
  obtain ⟨hst, ph, hs, hplan⟩ := h
  obtain ⟨_, _, hexhausted⟩ := hostNextWarm_moves left d ph s.regs.out
  obtain ⟨t, ht⟩ := sessionTick hl (by rw [hst]; rfl) hr hstop hs (hplan.trans (hexhausted hleft))
  exact ⟨t, ht, ht.regs.trans (blockTick_idle_hold hst ht.start)⟩

end

/-- Settles O56: `retry_delay` ticks of `AtDelay.sleep`, then the command or the return. -/
theorem retryDelayIsCounted : Obligations.RetryDelayIsCounted := by
  intro s left d c hl hinv hd hcase hs hreset hnostop
  have hstart : AtDelay left d d s := atDelay_of_done (hinv hl).1 hs hd hcase
  have hstream {k : Nat} {u : State} (hk : k < d + 1) (hrun : RunElapsed k s u) :
      u.live = true ∧ (u.streamAt 0).rst = false ∧ (u.streamAt 0).stop = false := by
    obtain ⟨_, hlive, hst⟩ := hrun
    rw [hst 0]
    exact ⟨hlive.trans hl, hreset k hk, hnostop k hk⟩
  have hrun := after_induction (P := fun k u => u.regs = s.regs ∧ RunElapsed k s u ∧ AtDelay left d (d - k) u) (n := d)
    ⟨rfl, runElapsed_zero s, hstart⟩ fun k u hk ⟨hregs, helapsed, hdelay⟩ => by
      obtain ⟨hlive, hr, hstop⟩ := hstream (by omega) helapsed
      rw [show d - k = (d - (k + 1)) + 1 by omega] at hdelay
      obtain ⟨t, ht, hkeep, hnext⟩ := hdelay.sleep hlive hr hstop
      exact ⟨t, ht.step, hkeep.trans hregs, helapsed.step ht.elapsed, hnext⟩
  constructor
  case left =>
    intro k hk
    obtain ⟨u, hu, hregs, helapsed, hdelay⟩ := hrun k hk.le
    obtain ⟨hlive, hr, hstop⟩ := hstream (by omega) helapsed
    have hst := hdelay.1
    rw [show d - k = (d - k - 1) + 1 by omega] at hdelay
    obtain ⟨_, ht, _⟩ := hdelay.sleep hlive hr hstop
    exact ⟨u, hu, hregs, ht.start, hst, drives_high u.regs (by simp [hst, isWait]) (by simp [hst])⟩
  case right =>
    obtain ⟨u, hu, hregs, helapsed, hdelay⟩ := hrun d le_rfl
    obtain ⟨hlive, hr, hstop⟩ := hstream (by omega) helapsed
    rw [Nat.sub_self] at hdelay
    refine ⟨u, hu, hregs, fun hleft => ?_, fun hleft => ?_⟩
    · obtain ⟨_, ht⟩ := hdelay.commands hlive hr hstop hleft
      exact ⟨ht.start, ht.cold⟩
    · obtain ⟨t, ht, hkeep⟩ := hdelay.exhausts hlive hr hstop hleft
      exact ⟨ht.start, t, ht.step, ht.session, ht.ret _ rfl, hkeep.trans hregs⟩

end Sys2Proof.Machine
end

section
/-! PROOFS of the family 43_retry_sampler.md, the session run tick by tick: with the attempts of the block (R232) and the delays of
the host (R173) it is `sampleRun` over the outcomes the block publishes (R171 to R174). -/

namespace Sys2Proof.Machine

/-! ## Tallies -/

/-- Nothing counted. -/
def Tally.zero : Tally where
  cold := 0
  warm := 0
  slept := 0
  outcomes := []

/-- One command counted. -/
def Tally.command (c : Bool) : Tally where
  cold := if c then 1 else 0
  warm := if c then 0 else 1
  slept := 0
  outcomes := []

/-- Outcomes read, and ticks slept after them. -/
def Tally.read (os : List DecodeOutcome) (slept : Nat) : Tally where
  cold := 0
  warm := 0
  slept := slept
  outcomes := os

theorem Tally.zero_add (a : Tally) : Tally.zero.add a = a := by
  simp [Tally.zero, Tally.add]

theorem Tally.add_zero (a : Tally) : a.add .zero = a := by
  simp [Tally.zero, Tally.add]

theorem Tally.add_assoc (a b c : Tally) : (a.add b).add c = a.add (b.add c) := by
  simp [Tally.add, Nat.add_assoc]

/-- A step's tally and the rest's. -/
theorem tally_step {s t : State} (h : step s = .next t) (n : Nat) : tally (n + 1) s = (tickTally s).add (tally n t) := by
  simp [tally, h]

/-- A tick in which a busy block goes on, in a session or not, counts nothing: no command is taken, no tick slept, and there is no
outcome yet (R38). -/
theorem tickTally_busy {s : State} (hi : RegsInv s.cfg.toParams s.regs) (hbusy : s.regs.st ≠ .idle) :
    tickTally s = .zero := by
  obtain ⟨hdone, _⟩ := hi.busy hbusy
  have hread : outcomeRead s = [] := by
    unfold outcomeRead
    split
    · rw [outcome_of_not_done _ hdone]
      rfl
    · rfl
  simp [tickTally, hbusy, hread, Tally.zero]

/-- The tally of a tick in which the host of a session on an idle block makes the move `mv`. -/
theorem tickTally_idle {s t : State} {mv : HostMove} (h : SessionTick s mv t) (hs : s.session ≠ none)
    (hst : s.regs.st = .idle) :
    tickTally s = (if mv.start then Tally.command mv.cold else .zero).add
      (.read (outcomeRead s) (if mv.next.isSome ∧ mv.start = false then 1 else 0)) := by
  obtain ⟨ss, hss⟩ := Option.ne_none_iff_exists'.mp hs
  have hnext : s.host.bind HostMove.next = mv.next := by
    rw [host_session hss, ← h.session, (session_next hss h.step).1]
    rfl
  unfold tickTally
  rw [hnext, h.start, h.cold, hss, hst]
  cases mv.start <;> cases mv.cold <;> simp [Tally.add, Tally.command, Tally.zero, Tally.read]

/-- A run whose ticks count nothing counts nothing. -/
theorem tally_zero {n : Nat} {s : State} (h : ∀ k < n, ∃ v, after k s = some v ∧ tickTally v = .zero) :
    tally n s = .zero := by
  induction n generalizing s with
  | zero => rfl
  | succ n ih =>
    obtain ⟨v, hv, hzero⟩ := h 0 (by omega)
    obtain rfl := Option.some.inj hv
    cases hstep : step s with
    | next t =>
      rw [tally_step hstep, hzero, Tally.zero_add]
      refine ih fun k hk => ?_
      rw [← after_step hstep]
      exact h (k + 1) (by omega)
    | fault r => simp [tally, hstep, hzero]
    | refused r => simp [tally, hstep, hzero]

/-- A run and the run after it, with their tallies. -/
theorem after_add {m : Nat} {s t : State} (h : after m s = some t) (n : Nat) :
    after (m + n) s = after n t ∧ tally (m + n) s = (tally m s).add (tally n t) := by
  induction m generalizing s with
  | zero =>
    obtain rfl := Option.some.inj h
    exact ⟨by rw [Nat.zero_add], by rw [Nat.zero_add]; exact (Tally.zero_add _).symm⟩
  | succ m ih =>
    cases hstep : step s with
    | next r =>
      rw [after_step hstep] at h
      obtain ⟨hrun, htally⟩ := ih h
      rw [Nat.add_right_comm, after_step hstep, tally_step hstep, tally_step hstep, htally,
        Tally.add_assoc]
      exact ⟨hrun, rfl⟩
    | fault r => simp [after, hstep] at h
    | refused r => simp [after, hstep] at h

/-! ## Parts of a session's run -/

/-- In `n` ticks, in each of which the session runs, the machine goes from `s` to `u`, and `T` is counted. -/
structure Plays (n : Nat) (s u : State) (T : Tally) : Prop where
  run : after n s = some u
  inv : RegsInv u.cfg.toParams u.regs
  elapsed : RunElapsed n s u
  sessions : ∀ k < n, ∃ v, after k s = some v ∧ v.session ≠ none
  counted : tally n s = T

/-- One part after the other. -/
theorem Plays.trans {m n : Nat} {s t u : State} {T U : Tally} (h : Plays m s t T) (h' : Plays n t u U) :
    Plays (m + n) s u (T.add U) where
  run := (after_add h.run n).1.trans h'.run
  inv := h'.inv
  elapsed := by
    obtain ⟨hcfg, hlive, hstream⟩ := h.elapsed
    obtain ⟨hcfg', hlive', hstream'⟩ := h'.elapsed
    exact ⟨hcfg'.trans hcfg, hlive'.trans hlive, fun k => by rw [hstream', hstream, Nat.add_assoc]⟩
  sessions k hk := by
    by_cases hm : k < m
    · exact h.sessions k hm
    · obtain ⟨v, hv, hs⟩ := h'.sessions (k - m) (by omega)
      refine ⟨v, ?_, hs⟩
      rw [← hv, ← (after_add h.run (k - m)).1, Nat.add_sub_cancel' (by omega)]
  counted := by rw [(after_add h.run n).2, h.counted, h'.counted]

/-- What a part of a session's run starts with, if it may take `N` ticks: the invariant, and neither `rst` nor a stop in these. -/
structure Ready (N : Nat) (s : State) : Prop where
  live : s.live = true
  inv : RegsInv s.cfg.toParams s.regs
  noReset : NoReset s N
  noStop : NoStop s N

theorem Ready.mono {M N : Nat} {s : State} (h : Ready M s) (hle : N ≤ M) : Ready N s :=
  ⟨h.live, h.inv, h.noReset.mono hle, fun k hk => h.noStop k (by omega)⟩

theorem Ready.after {M N n : Nat} {s u : State} {T : Tally} (h : Ready M s) (hp : Plays n s u T) (hle : n + N ≤ M) :
    Ready N u := by
  obtain ⟨_, hlive, hstream⟩ := hp.elapsed
  exact ⟨hlive.trans h.live, hp.inv, fun k hk => by rw [hstream]; exact h.noReset _ (by omega),
    fun k hk => by rw [hstream]; exact h.noStop _ (by omega)⟩

/-- The tick of a part that has one. -/
theorem Ready.tick {N : Nat} {s : State} {ss : Session} {mv : HostMove} (h : Ready N s) (hN : 1 ≤ N)
    (hs : s.session = some ss) (hplan : hostPlan ss s.regs.out = mv) : ∃ t, SessionTick s mv t :=
  sessionTick h.live h.inv.st_named (h.noReset 0 hN) (h.noStop 0 hN) hs hplan

/-- One tick of a session as a part of its run. -/
theorem SessionTick.plays {s t : State} {mv : HostMove} (h : SessionTick s mv t) (hi : RegsInv s.cfg.toParams s.regs)
    (hs : s.session ≠ none) : Plays 1 s t (tickTally s) where
  run := (after_step h.step 0).trans (after_zero t)
  inv := step_keeps_regsInv hi h.step
  elapsed := (runElapsed_zero s).step h.elapsed
  sessions k hk := by
    obtain rfl : k = 0 := by omega
    exact ⟨s, after_zero s, hs⟩
  counted := (tally_step h.step 0).trans (Tally.add_zero _)

/-! ## The block's attempts -/

/-- No attempt has more ticks left than a cold one at its start (R232). -/
theorem ticksLeft_le_attemptBound {c : Config} (r : Regs) : ticksLeft c.toParams r ≤ attemptBound c.toParams true := by
  have hb := Config.bounds c
  have hbits := fortyBits_eq c.toParams
  have hmore : (nBits - 1 - r.bitcnt.toNat) * bitTicks c.toParams ≤ (nBits - 1) * bitTicks c.toParams :=
    Nat.mul_le_mul_right _ (Nat.sub_le _ _)
  have hcold : startBitTicks c.toParams true = (c.toSbLow - 1) + (c.toSbHigh - 1) := rfl
  have hmode : startBitTicks c.toParams r.coldQ ≤ startBitTicks c.toParams true := by
    cases r.coldQ
    · exact Nat.zero_le _
    · exact le_rfl
  unfold attemptBound
  cases hst : r.st
  case s8Restore =>
    simp only [ticksLeft, hst]
    split <;> omega
  all_goals
    simp only [ticksLeft, hst]
    omega

/-- While a busy block has no outcome, a host that is not asleep keeps its phase (R171). -/
theorem hostPlan_busy {ss : Session} {o : Output} (hb : o.busy = true) (hd : o.done = false)
    (hph : ∀ n, ss.phase ≠ .pause n) : (hostPlan ss o).next = some ss := by
  obtain ⟨left, d, ph⟩ := ss
  cases ph with
  | request c => rw [hostPlan_request rfl, hostRequest_busy hb]; rfl
  | awaitDone c => rw [hostPlan_waiting rfl hd]; rfl
  | pause n => exact absurd rfl (hph n)
  | finish => rw [hostPlan_finish rfl, hostFinish_busy hb]; rfl

/-- A busy block ends its attempt while the host waits, with nothing counted (R171, R232). -/
theorem session_attempt {s : State} {ss : Session} {N : Nat} (h : Ready N s)
    (hN : attemptBound s.cfg.toParams true ≤ N) (hs : s.session = some ss) (hph : ∀ n, ss.phase ≠ .pause n)
    (hbusy : s.regs.st ≠ .idle) :
    ∃ n u, n ≤ attemptBound s.cfg.toParams true ∧ Plays n s u .zero ∧ u.regs.st = .idle ∧ u.regs.done = true ∧
      u.session = some ss := by
  have hkeeps : ∀ u t, RegsInv u.cfg.toParams u.regs → u.regs.st ≠ .idle → u.ports.rst = false → step u = .next t →
      u.session = some ss → t.session = some ss := by
    intro u t hi hb _ hstep hus
    have hout := busy_of_ne hb
    rw [(session_next hus hstep).1, hostMove_busy _ hout]
    exact hostPlan_busy hout (hi.busy hb).1 hph
  obtain ⟨n, u, hn, hrun⟩ := busyRun hkeeps _ (ticksLeft_le_attemptBound s.regs) h.live h.inv hbusy
    (h.noReset.mono hN) hs
  refine ⟨n, u, hn, ?_, hrun.idle, hrun.done, hrun.carried⟩
  exact {
    run := hrun.run
    inv := hrun.inv
    elapsed := ⟨hrun.cfg, hrun.live.trans h.live.symm, hrun.stream⟩
    sessions := fun k hk => by
      obtain ⟨v, hv, _, _, hvs⟩ := hrun.busy k hk
      exact ⟨v, hv, by simp [hvs]⟩
    counted := tally_zero fun k hk => by
      obtain ⟨v, hv, hb, hi, _⟩ := hrun.busy k hk
      exact ⟨v, hv, tickTally_busy hi hb⟩ }

/-- A finished attempt has an outcome: the published reading, or an error (R38, R74). -/
theorem RegsInv.outcome_cases {p : Params} {r : Regs} (hi : RegsInv p r) (hd : r.done = true) :
    (r.valid = true ∧ r.outcome = some (.ok r.humX10 r.tempX10)) ∨ (r.valid = false ∧ ∃ e, r.outcome = some (.err e)) := by
  cases hv : r.valid with
  | true => exact .inl ⟨rfl, outcome_of_valid r hd hv⟩
  | false =>
    obtain ⟨e, he⟩ := hi.exists_error hd hv
    exact .inr ⟨rfl, e, outcome_of_error r e hd hv he⟩

/-- The outcome that a host waiting for `done` reads (R171(4)). -/
theorem outcomeRead_awaiting {s : State} {left d : Nat} {c : Bool} {o : DecodeOutcome}
    (hs : s.session = some ⟨left, d, .awaitDone c⟩) (ho : s.regs.outcome = some o) : outcomeRead s = [o] := by
  simp [outcomeRead, hs, ho]

/-- In any other phase the host reads none. -/
theorem outcomeRead_other {s : State} {ss : Session} (hs : s.session = some ss) (hph : ∀ c, ss.phase ≠ .awaitDone c) :
    outcomeRead s = [] := by
  obtain ⟨left, d, ph⟩ := ss
  unfold outcomeRead
  rw [hs]
  cases ph with
  | awaitDone c => exact absurd rfl (hph c)
  | _ => rfl

/-- A request of the host is taken, within an attempt that may be running and its own tick (R171(1), (2)). -/
theorem session_request {s : State} {left d : Nat} {c : Bool} {N : Nat} (h : Ready N s)
    (hN : attemptBound s.cfg.toParams true + 1 ≤ N) (hs : s.session = some ⟨left, d, .request c⟩) :
    ∃ n u, n ≤ attemptBound s.cfg.toParams true + 1 ∧ Plays n s u (.command c) ∧ u.regs.st ≠ .idle ∧
      u.session = some ⟨left, d, .awaitDone c⟩ := by
  have hidle (t : State) (ht : Ready 1 t) (hts : t.session = some ⟨left, d, .request c⟩) (hst : t.regs.st = .idle) :
      ∃ u, Plays 1 t u (.command c) ∧ u.regs.st ≠ .idle ∧ u.session = some ⟨left, d, .awaitDone c⟩ := by
    obtain ⟨u, hu⟩ := ht.tick le_rfl hts ((hostPlan_request rfl).trans (hostRequest_idle (busy_of_idle hst)))
    have hsome : t.session ≠ none := by simp [hts]
    have hplays := hu.plays ht.inv hsome
    rw [tickTally_idle hu hsome hst, outcomeRead_other hts (by simp)] at hplays
    refine ⟨u, by simpa [hostCommand, Tally.read, Tally.add] using hplays, ?_, hu.session⟩
    rw [hu.regs, blockTick_idle hst, hu.start]
    simp [hostCommand]
  by_cases hst : s.regs.st = .idle
  · obtain ⟨u, hplays, hend⟩ := hidle s (h.mono (by omega)) hs hst
    exact ⟨1, u, by omega, hplays, hend⟩
  · obtain ⟨n, t, hn, hwait, htst, _, hts⟩ := session_attempt h (by omega) hs (by simp) hst
    obtain ⟨u, hplays, hend⟩ := hidle t (h.after hwait (by omega)) hts htst
    have hboth := hwait.trans hplays
    rw [Tally.zero_add] at hboth
    exact ⟨n + 1, u, by omega, hboth, hend⟩

/-! ## The delays -/

/-- What comes of a delay: `Exhausted` with nothing left, else the next warm attempt under way. -/
def DelayOver (left d : Nat) (u : State) : Prop :=
  (left = 0 ∧ u.session = none ∧ u.ret = some (.sampled .exhausted)) ∨
  (0 < left ∧ u.regs.st ≠ .idle ∧ u.session = some ⟨left - 1, d, .awaitDone false⟩)

/-- The command that a delay ends with, if any. -/
def delayCommand (left : Nat) : Tally := if left = 0 then .zero else .command false

/-- Ticks slept before the delay's end are counted with it. -/
theorem delayCommand_slept (left j : Nat) (os : List DecodeOutcome) :
    (Tally.read os 1).add ((delayCommand left).add (.read [] j)) = (delayCommand left).add (.read os (j + 1)) := by
  unfold delayCommand
  split <;> simp [Tally.add, Tally.read, Tally.zero, Tally.command, Nat.add_comm]

/-- A delay of `j` ticks and its end: `j` ticks are slept, the outcome before it is read in its first tick (R173). -/
theorem AtDelay.over {left d j : Nat} {s : State} (h : Ready (j + 1) s) (hd : AtDelay left d j s) :
    ∃ u, Plays (j + 1) s u ((delayCommand left).add (.read (outcomeRead s) j)) ∧ DelayOver left d u := by
  have hst := hd.1
  have hsome : s.session ≠ none := by
    obtain ⟨_, _, hs, _⟩ := hd
    simp [hs]
  have hr := h.noReset 0 (by omega)
  have hstop := h.noStop 0 (by omega)
  induction j generalizing s with
  | zero =>
    rcases Nat.eq_zero_or_pos left with hleft | hleft
    · obtain ⟨t, ht, _⟩ := hd.exhausts h.live hr hstop hleft
      have hplays := ht.plays h.inv hsome
      rw [tickTally_idle ht hsome hst] at hplays
      refine ⟨t, by simpa [delayCommand, hleft, hostReturn] using hplays, .inl ⟨hleft, ht.session, ht.ret _ rfl⟩⟩
    · obtain ⟨t, ht⟩ := hd.commands h.live hr hstop hleft
      have hplays := ht.plays h.inv hsome
      rw [tickTally_idle ht hsome hst] at hplays
      refine ⟨t, by simpa [delayCommand, hleft.ne', hostCommand] using hplays, .inr ⟨hleft, ?_, ht.session⟩⟩
      rw [ht.regs, blockTick_idle hst, ht.start]
      simp [hostCommand]
  | succ j ih =>
    obtain ⟨t, ht, _, hnext⟩ := hd.sleep h.live hr hstop
    have hplays := ht.plays h.inv hsome
    rw [tickTally_idle ht hsome hst] at hplays
    have hready : Ready (j + 1) t := h.after hplays (by omega)
    have htsome : t.session ≠ none := by simp [ht.session, hostHold]
    obtain ⟨u, hrest, hover⟩ := ih hready hnext hnext.1 htsome (hready.noReset 0 (by omega)) (hready.noStop 0 (by omega))
    rw [outcomeRead_other ht.session (by simp)] at hrest
    have hboth := hplays.trans hrest
    simp only [hostHold, Bool.false_eq_true, if_false, Option.isSome_some, and_self, if_true, Tally.zero_add,
      delayCommand_slept] at hboth
    rw [Nat.add_comm 1] at hboth
    exact ⟨u, hboth, hover⟩

/-! ## A stub with one more answer -/

/-- The stub that answers `o` first and then as `stub` does. -/
def consOutcome (o : DecodeOutcome) (stub : Nat → DecodeOutcome) : Nat → DecodeOutcome
  | 0 => o
  | k + 1 => stub k

theorem warmRun_cons (o : DecodeOutcome) (stub : Nat → DecodeOutcome) (m : Nat) :
    warmRun (consOutcome o stub) m 1 = warmRun stub m 0 := warmRun_shift _ m 0

/-- A warm run makes no cold decode. -/
theorem warmRun_coldDecodes (stub : Nat → DecodeOutcome) (m i : Nat) : (warmRun stub m i).coldDecodes = 0 := by
  induction m generalizing i with
  | zero => rfl
  | succ m ih =>
    unfold warmRun
    split
    · rfl
    · split
      · rfl
      · exact ih (i + 1)

/-- The first answers of such a stub. -/
theorem range_map_cons (o : DecodeOutcome) (stub : Nat → DecodeOutcome) (n : Nat) :
    (List.range (n + 1)).map (consOutcome o stub) = o :: (List.range n).map stub := by
  rw [List.range_succ_eq_map, List.map_cons, List.map_map]
  rfl

/-- What a run counts: its decodes, its delays of `d` ticks, and the answers it has used (R174). -/
def runTally (stub : Nat → DecodeOutcome) (d : Nat) (r : SampleRun) : Tally where
  cold := r.coldDecodes
  warm := r.warmDecodes
  slept := r.delays * d
  outcomes := (List.range (r.coldDecodes + r.warmDecodes)).map stub

/-- A warm error with an attempt left: one command, its outcome and a delay more than the rest of the run. -/
theorem runTally_err (e : ErrName) (stub : Nat → DecodeOutcome) (d left : Nat) :
    runTally (consOutcome (.err e) stub) d (warmRun (consOutcome (.err e) stub) (left + 2) 0) =
      (Tally.command false).add ((Tally.read [.err e] d).add (runTally stub d (warmRun stub (left + 1) 0))) := by
  rw [warmRun_err left (rfl : consOutcome (.err e) stub 0 = .err e), warmRun_cons]
  simp only [runTally, warmRun_coldDecodes, Nat.zero_add, range_map_cons]
  simp [Tally.add, Tally.read, Tally.command, Nat.add_mul, Nat.add_comm]

/-- A cold attempt: one command, its outcome and a delay more than the warm run. -/
theorem runTally_cold (o : DecodeOutcome) (stub : Nat → DecodeOutcome) (d m : Nat) :
    runTally (consOutcome o stub) d (sampleRun (consOutcome o stub) m true) =
      (Tally.command true).add ((Tally.read [o] d).add (runTally stub d (warmRun stub m 0))) := by
  simp only [sampleRun, if_true, warmRun_cons, runTally, warmRun_coldDecodes, Nat.zero_add, Nat.add_comm 1, range_map_cons]
  simp [Tally.add, Tally.read, Tally.command, Nat.add_mul, Nat.add_comm]

/-! ## The whole session -/

/-- The session ends `n` ticks from now with the result `x`, and `T` is counted on the way. -/
def SessionEnds (n : Nat) (s : State) (x : SampleResult) (T : Tally) : Prop :=
  ∃ u, Plays n s u T ∧ u.session = none ∧ u.ret = some (.sampled x)

theorem SessionEnds.after {m n : Nat} {s t : State} {x : SampleResult} {T U : Tally} (h : SessionEnds n t x U)
    (hp : Plays m s t T) : SessionEnds (m + n) s x (T.add U) := by
  obtain ⟨u, hplays, hend⟩ := h
  exact ⟨u, hp.trans hplays, hend⟩

/-- The ticks of an attempt with its command, its delay and the tick of its outcome at most. -/
def roundTicks (s : State) (d : Nat) : Nat := attemptBound s.cfg.toParams true + d + 2

/-- From a warm attempt under way, with `left` more in the budget, the session is the warm run of `left + 1` attempts, whose
first command has been given. -/
def WarmRuns (d left : Nat) : Prop :=
  ∀ s : State, Ready ((left + 1) * roundTicks s d) s → s.regs.st ≠ .idle →
    s.session = some ⟨left, d, .awaitDone false⟩ →
    ∃ n stub T, n ≤ (left + 1) * roundTicks s d ∧ SessionEnds n s (warmRun stub (left + 1) 0).result T ∧
      (Tally.command false).add T = runTally stub d (warmRun stub (left + 1) 0)

/-- After an outcome that is followed by a delay, the session is a warm run of the attempts left. -/
theorem AtDelay.retries {left d : Nat} {s : State} {o : DecodeOutcome} (hrest : ∀ k, left = k + 1 → WarmRuns d k)
    (h : Ready (d + 1 + left * roundTicks s d) s) (hd : AtDelay left d d s) (ho : outcomeRead s = [o]) :
    ∃ n stub, n ≤ d + 1 + left * roundTicks s d ∧
      SessionEnds n s (warmRun stub left 0).result ((Tally.read [o] d).add (runTally stub d (warmRun stub left 0))) := by
  obtain ⟨u, hplays, hover⟩ := AtDelay.over (h.mono (by omega)) hd
  rw [ho] at hplays
  rcases hover with ⟨rfl, hend⟩ | ⟨hleft, hbusy, hs⟩
  · refine ⟨d + 1, fun _ => o, by omega, u, ?_, hend⟩
    simpa [delayCommand, Tally.add, Tally.zero, runTally, warmRun, Tally.read] using hplays
  · obtain ⟨k, rfl⟩ : ∃ k, left = k + 1 := ⟨left - 1, by omega⟩
    have hround : roundTicks u d = roundTicks s d := by rw [roundTicks, hplays.elapsed.1]; rfl
    obtain ⟨n, stub, T, hn, hends, hT⟩ := hrest k rfl u (h.after hplays (by rw [hround])) hbusy hs
    rw [hround] at hn
    refine ⟨d + 1 + n, stub, by omega, ?_⟩
    have hall := hends.after hplays
    rw [← hT]
    simpa [delayCommand, Tally.add, Tally.command, Tally.read] using hall

/-- The tick in which the host returns the outcome it reads, or `Exhausted`. -/
theorem session_returns {s : State} {ss : Session} {x : SampleResult} (h : Ready 1 s) (hs : s.session = some ss)
    (hst : s.regs.st = .idle) (hplan : hostPlan ss s.regs.out = hostReturn x) :
    SessionEnds 1 s x (.read (outcomeRead s) 0) := by
  obtain ⟨t, ht⟩ := h.tick le_rfl hs hplan
  have hsome : s.session ≠ none := by simp [hs]
  have hplays := ht.plays h.inv hsome
  rw [tickTally_idle ht hsome hst] at hplays
  exact ⟨t, by simpa [hostReturn, Tally.zero_add] using hplays, ht.session, ht.ret _ rfl⟩

/-- A warm attempt ends with the reading, or with `Exhausted` if it was the last, or with a delay and the rest of the run. -/
theorem warmRuns_of_rest {d left : Nat} (hrest : ∀ k, left = k + 1 → WarmRuns d k) : WarmRuns d left := by
  intro s h hbusy hs
  have hbound : (left + 1) * roundTicks s d = left * roundTicks s d + (attemptBound s.cfg.toParams true + d + 2) :=
    Nat.succ_mul _ _
  obtain ⟨n, t, hn, hwait, hst, hd, hts⟩ := session_attempt h (by omega) hs (by simp) hbusy
  have hready : Ready (d + 1 + left * roundTicks s d) t := h.after hwait (by omega)
  have hplan := (hostPlan_outcome (ss := ⟨left, d, .awaitDone false⟩) rfl hd : hostPlan _ t.regs.out = _)
  rcases hready.inv.outcome_cases hd with ⟨hv, ho⟩ | ⟨hv, e, ho⟩
  · have hends := (session_returns (hready.mono (by omega)) hts hst (hplan.trans (hostOutcome_ok hv))).after hwait
    rw [Tally.zero_add, outcomeRead_awaiting hts ho] at hends
    refine ⟨n + 1, fun _ => .ok t.regs.humX10 t.regs.tempX10, .read [.ok t.regs.humX10 t.regs.tempX10] 0, by omega, ?_⟩
    rw [warmRun_ok left rfl]
    exact ⟨hends, by simp [runTally, Tally.add, Tally.command, Tally.read]⟩
  · cases left with
    | zero =>
      have hends := (session_returns (hready.mono (by omega)) hts hst (hplan.trans (hostOutcome_exhausted hv rfl))).after hwait
      rw [Tally.zero_add, outcomeRead_awaiting hts ho] at hends
      refine ⟨n + 1, fun _ => .err e, .read [.err e] 0, by omega, ?_⟩
      rw [warmRun_last rfl]
      exact ⟨hends, by simp [runTally, Tally.add, Tally.command, Tally.read]⟩
    | succ left =>
      have hround : roundTicks t d = roundTicks s d := by rw [roundTicks, hwait.elapsed.1]; rfl
      obtain ⟨n', stub, hn', hends⟩ := AtDelay.retries hrest (hround.symm ▸ hready)
        (atDelay_of_done hready.inv hts hd (.inr ⟨hv, Nat.succ_pos left⟩)) (outcomeRead_awaiting hts ho)
      rw [hround] at hn'
      have hall := hends.after hwait
      rw [Tally.zero_add] at hall
      refine ⟨n + n', consOutcome (.err e) stub, _, by omega, ?_, (runTally_err e stub d left).symm⟩
      rw [warmRun_err left (rfl : consOutcome (.err e) stub 0 = .err e), warmRun_cons]
      exact hall

/-- Every warm attempt under way leads to the end of its session. -/
theorem warmRuns (d left : Nat) : WarmRuns d left := by
  induction left with
  | zero => exact warmRuns_of_rest fun k hk => by omega
  | succ left ih =>
    exact warmRuns_of_rest fun k hk => by
      obtain rfl : left = k := by omega
      exact ih

section
variable {s : State} {m d : Nat}

/-- A session with a cold decode: the cold attempt, its outcome discarded, the delay, and the warm run (R172(a)). -/
theorem session_cold (h : Ready ((m + 2) * roundTicks s d) s) (hs : s.session = some ⟨m, d, .request true⟩) :
    ∃ n stub, n ≤ (m + 2) * roundTicks s d ∧
      SessionEnds n s (sampleRun stub m true).result (runTally stub d (sampleRun stub m true)) := by
  have hbound : (m + 2) * roundTicks s d = m * roundTicks s d + 2 * (attemptBound s.cfg.toParams true + d + 2) :=
    Nat.add_mul _ _ _
  obtain ⟨n₁, u, hn₁, hcommand, hbusy, hus⟩ := session_request h (by omega) hs
  have hcfg := hcommand.elapsed.1
  have hready : Ready (attemptBound s.cfg.toParams true + (d + 1 + m * roundTicks s d)) u := h.after hcommand (by omega)
  obtain ⟨n₂, t, hn₂, hwait, _, hd, hts⟩ := session_attempt hready (by rw [hcfg]; omega) hus (by simp) hbusy
  rw [hcfg] at hn₂
  have hround : roundTicks t d = roundTicks s d := by rw [roundTicks, hwait.elapsed.1, hcfg]; rfl
  have hready' : Ready (d + 1 + m * roundTicks t d) t := hready.after hwait (by rw [hround]; omega)
  obtain ⟨o, ho⟩ : ∃ o, t.regs.outcome = some o := by
    rcases hready'.inv.outcome_cases hd with ⟨_, ho⟩ | ⟨_, e, ho⟩ <;> exact ⟨_, ho⟩
  obtain ⟨n₃, stub, hn₃, hends⟩ := AtDelay.retries (fun k _ => warmRuns d k) hready'
    (atDelay_of_done hready'.inv hts hd (.inl rfl)) (outcomeRead_awaiting hts ho)
  rw [hround] at hn₃
  refine ⟨n₁ + n₂ + n₃, consOutcome o stub, by omega, ?_⟩
  have hall := hends.after (hcommand.trans hwait)
  rw [Tally.add_zero, ← runTally_cold] at hall
  have hresult : (sampleRun (consOutcome o stub) m true).result = (warmRun stub m 0).result := by
    simp only [sampleRun, if_true, warmRun_cons]
  rwa [hresult]

/-- A session without one: the first warm command, and the warm run (R172(b)). -/
theorem session_warm (h : Ready ((m + 1 + 2) * roundTicks s d) s) (hs : s.session = some ⟨m, d, .request false⟩) :
    ∃ n stub, n ≤ (m + 1 + 2) * roundTicks s d ∧
      SessionEnds n s (sampleRun stub (m + 1) false).result (runTally stub d (sampleRun stub (m + 1) false)) := by
  have hbound : (m + 1 + 2) * roundTicks s d =
      (m + 1) * roundTicks s d + 2 * (attemptBound s.cfg.toParams true + d + 2) := Nat.add_mul _ _ _
  obtain ⟨n₁, u, hn₁, hcommand, hbusy, hus⟩ := session_request h (by omega) hs
  have hround : roundTicks u d = roundTicks s d := by rw [roundTicks, hcommand.elapsed.1]; rfl
  obtain ⟨n₂, stub, T, hn₂, hends, hT⟩ := warmRuns d m u (h.after hcommand (by rw [hround]; omega)) hbusy hus
  rw [hround] at hn₂
  exact ⟨n₁ + n₂, stub, by omega, hT ▸ hends.after hcommand⟩

/-- A session with nothing to decode: the wait for an idle block, and `Exhausted` (R175; log entry 23). -/
theorem session_finish (h : Ready (2 * roundTicks s d) s) (hs : s.session = some ⟨0, d, .finish⟩) :
    ∃ n stub, n ≤ 2 * roundTicks s d ∧
      SessionEnds n s (sampleRun stub 0 false).result (runTally stub d (sampleRun stub 0 false)) := by
  have hround : roundTicks s d = attemptBound s.cfg.toParams true + d + 2 := rfl
  have hidle (t : State) (ht : Ready 1 t) (hts : t.session = some ⟨0, d, .finish⟩) (hst : t.regs.st = .idle) :
      SessionEnds 1 t .exhausted .zero := by
    have hends := session_returns ht hts hst ((hostPlan_finish rfl).trans (hostFinish_idle (busy_of_idle hst)))
    rwa [outcomeRead_other hts (by simp)] at hends
  have hnothing : runTally (fun _ => .err .e1) d (sampleRun (fun _ => .err .e1) 0 false) = .zero := by
    simp [runTally, sampleRun, warmRun, Tally.zero]
  by_cases hst : s.regs.st = .idle
  · refine ⟨1, fun _ => .err .e1, by omega, ?_⟩
    rw [hnothing]
    exact hidle s (h.mono (by omega)) hs hst
  · obtain ⟨n, t, hn, hwait, htst, _, hts⟩ := session_attempt h (by omega) hs (by simp) hst
    refine ⟨n + 1, fun _ => .err .e1, by omega, ?_⟩
    rw [hnothing]
    exact (hidle t (h.after hwait (by omega)) hts htst).after hwait

end

/-- Settles O60: the three sessions a `sample` call can begin, each played to its end. -/
theorem sessionRunsAsSampleRun : Obligations.SessionRunsAsSampleRun := by
  rintro s m d c _ hl hinv rfl hs hreset hnostop
  have hready : Ready ((m + 2) * roundTicks s d) s := ⟨hl, (hinv hl).1, hreset, hnostop⟩
  have hplayed : ∃ n stub, n ≤ (m + 2) * roundTicks s d ∧
      SessionEnds n s (sampleRun stub m c).result (runTally stub d (sampleRun stub m c)) := by
    rcases beginSession_cases m d c with ⟨rfl, heq⟩ | ⟨rfl, rfl, heq⟩ | ⟨k, rfl, rfl, heq⟩ <;> rw [heq] at hs
    · exact session_cold hready hs
    · rw [Nat.zero_add] at hready ⊢
      exact session_finish hready hs
    · exact session_warm hready hs
  obtain ⟨n, stub, hn, u, hplays, hend, hret⟩ := hplayed
  exact ⟨n, stub, u, hn, hplays.run, hend, hret, hplays.sessions, hplays.counted⟩

end Sys2Proof.Machine
end
